-- ==== Sys2Proof/Word.lean ====
section
/-! DEFINITION. Word.lean: the words of the GD2048 and their plainest arithmetic. -/

namespace Sys2Proof

/-- A byte on a wire, in a frame or in host memory. -/
abbrev Byte := BitVec 8

/-- A 64-bit word: a Novha parameter word (R268) or a host-memory record word (R13). -/
abbrev Word := BitVec 64

/-- The value of an object. The widest object is QUEUE_HIST with 512 bits (Table SQ-1); a narrower
object leaves the bits above its width zero. -/
abbrev ObjVal := BitVec 512

end Sys2Proof
end

