-- ==== Sys2Proof/Syntax.lean ====
section
/-! DEFINITION. Syntax.lean: the commands of the block, one constructor of Instr for each row of
spec/opcode_table.json, and the operand types they carry. The table gives its rows no bits and no
operand lists; the operands are what the chapter of each row says the step is about. -/

namespace Sys2Proof

/-- The channel a Novha packet came by, with the way back for its reply (R273, R283, R287, R290, R291). -/
inductive Channel where
  /-- PCIe command queue: queue, address of the request packet, reply address, reply room in bytes, USER word
  (Table CP-7). -/
  | pcie (queue cmdAddr rspAddr rspLen : Nat) (user : BitVec 32)
  /-- In-band: ingress port, source address and the VLAN tag bytes of the command frame (R287). -/
  | inband (port : Nat) (srcMac : BitVec 48) (tags : List Byte)
  /-- Sideband ring: the sender's device ID (R290). -/
  | sideband (src : Nat)
  /-- Flock control pipe of an octet (R291). -/
  | flock (octet : Nat)
  deriving DecidableEq, Repr

/-- A Novha packet as received (R268): version 1 or 2, the header bits (a version 1 header is the low
128 bits), the parameter words and the trailer (R280). -/
structure Packet where
  v2 : Bool
  hdr : BitVec 256
  params : List Word
  trailer : Option (BitVec 256)
  deriving DecidableEq, Repr

/-- What the trailer check of R281 found. -/
inductive Auth where
  | none      -- no trailer
  | accepted  -- correct tag, ASEQ marked
  | replayed  -- correct tag, ASEQ refused: replies DENIED
  deriving DecidableEq, Repr

/-- A request the crook has taken in: its channel, packet and trailer outcome. -/
structure Request where
  chan : Channel
  pkt : Packet
  auth : Auth
  deriving DecidableEq, Repr

/-- What a context meets in one microstep (R309, R311): the bits that the first and the second fetch of its microword
invert, the same for its nanoword, and whether the step's condition holds where it depends on the results of nanowords, whose
operations the manual does not give (COND 0x1, 0x2, 0x3, 0xA and 0xC of Table CE-6). -/
structure MicroStep where
  flip : BitVec 24
  flip2 : BitVec 24
  nflip : BitVec 144
  nflip2 : BitVec 144
  cond : Bool
  deriving DecidableEq, Repr

/-- The microsteps of a command that a row follows, from the microaddress of its context on; the steps after them meet no
error. parts: the parts of the command that its apply phase has made when the last of them takes a machine check, none where
the apply phase has not begun. again, partsAgain: the same for the restart of R313. DESIGN CHOICE, log entry 77. -/
structure Fetch where
  steps : List MicroStep
  parts : Option Nat
  again : List MicroStep
  partsAgain : Nat
  deriving DecidableEq, Repr

/-- A row that follows no microstep: the command meets no error. -/
def Fetch.clean : Fetch := ⟨[], none, [], 0⟩

/-- The START block's contents for a frame of a flock data pipe (Table FL-11). -/
structure PipeStart where
  tc : Nat
  srcDevid : Nat
  srcPort : Nat
  inSec : Nat
  inNs : Nat
  inFrac : Nat
  deriving DecidableEq, Repr

/-- What the PCS and the FEC of a port have met since the frame before: errored PCS blocks, FEC codewords corrected and
uncorrected, FEC symbols corrected, and the BIP errors of the PCS lanes of each physical lane of the port, first lane first
(Tables EP-10 and EP-14). DESIGN CHOICE, log entry 107. -/
structure PhyErrs where
  symbols : Nat
  corrected : Nat
  uncorrected : Nat
  fecSymbols : Nat
  bips : List Nat
  deriving DecidableEq, Repr

/-- A block of the flock-link block code by its header (R42): data, control, or errored, each with its payload. -/
inductive Block where
  | data (p : BitVec 128)
  | ctrl (p : BitVec 128)
  | errored (p : BitVec 128)
  deriving DecidableEq, Repr

/-- What a framer has received of one superframe beside its overhead block: the 16 blocks of each slot, an unlisted slot
having carried IDLE blocks only, and the payloads of its filler blocks (R252). -/
structure Superframe where
  slots : List (Nat × List Block)
  fillers : List (BitVec 128)
  deriving DecidableEq, Repr

/-- A frame as it comes in on the wire of a front port: its bytes, FCS included, whether the
preemptable MAC receives it, whether its fragments assemble wrongly (R75), whether it starts wrongly,
how many fragments it came in, on a flock data pipe its START block and whether a block of it was
errored (R261), and what the layers below the MAC have met. DESIGN CHOICE, log entry 8. -/
structure WireFrame where
  bytes : List Byte
  preemptable : Bool
  assemblyErr : Bool
  smdErr : Bool
  fragments : Nat
  pipe : Option PipeStart
  blockErr : Bool
  phy : PhyErrs
  deriving DecidableEq, Repr

/-- A sideband DATA frame as a station receives it (Table CP-8). -/
structure SbData where
  mon : Bool
  dst : Nat
  src : Nat
  packet : List Byte
  crcOk : Bool
  a : Bool
  c : Bool
  deriving DecidableEq, Repr

/-- A damaged page of a block that a patrol finds (R345), its number among the pages of records, and the slot where one has
a CRC mismatch: 0 ECC threshold, 1 uncorrectable page, 2 CRC mismatch (EV_FLASH_REFRESH INFO1). -/
structure PatrolFinding where
  block : Nat
  page : Nat
  slot : Nat
  kind : Nat
  deriving DecidableEq, Repr

/-- How a write of TAIL comes (R297): through the command path to a transmit or a receive ring, or to a doorbell in BAR0 of a
function. -/
inductive TailPath where
  | command (tx : Bool)
  | doorbell (fn : Nat)
  deriving DecidableEq, Repr

/-- The write that unmasks a vector: the vector, and the message address and data of its MSI-X entry (R296, R304). -/
structure Unmask where
  v : Nat
  addr : BitVec 64
  data : BitVec 32
  deriving DecidableEq, Repr

/-- A delimited frame of a control pipe: its bytes, FCS included, and whether a block of it was errored (R261, R263). -/
structure ControlFrame where
  bytes : List Byte
  blockErr : Bool
  deriving DecidableEq, Repr

/-- Bytes that host software writes to its own memory at an address before it rings a doorbell: request packets,
submission entries, descriptors, frame buffers (R283, R297). DESIGN CHOICE, log entry 7. -/
structure HostWrite where
  addr : Nat
  bytes : List Byte
  deriving DecidableEq, Repr

/-- The commands, in the table's order. -/
inductive Instr where
  | nop (r : Request) (f : Fetch)
  | getInfo (r : Request) (f : Fetch)
  | read (r : Request) (f : Fetch)
  | write (r : Request) (f : Fetch)
  | writeMasked (r : Request) (f : Fetch)
  | writeList (r : Request) (f : Fetch)
  | readDma (r : Request) (f : Fetch)
  | commit (r : Request) (f : Fetch)
  | discardStaged (r : Request) (f : Fetch)
  | emInsert (r : Request) (f : Fetch)
  | emDelete (r : Request) (f : Fetch)
  | emLookup (r : Request) (f : Fetch)
  | ruleInsert (r : Request) (f : Fetch)
  | ruleDelete (r : Request) (f : Fetch)
  | objRelease (r : Request) (f : Fetch)
  | hitHarvest (r : Request) (f : Fetch)
  | learnAck (r : Request) (f : Fetch)
  | tallyReadClear (r : Request) (f : Fetch)
  | versionCommit (r : Request) (f : Fetch)
  | versionCommitResume
  | versionCommitTimeout
  | versionDiscard (r : Request) (f : Fetch)
  | versionPrepare (r : Request) (f : Fetch)
  | flockVersionCommit (r : Request) (f : Fetch)
  | flockCommitResend
  | recorderRead (r : Request) (f : Fetch)
  | recorderClear (r : Request) (f : Fetch)
  | faultAck (r : Request) (f : Fetch)
  | faultInject (r : Request) (f : Fetch)
  | unitReset (r : Request) (f : Fetch)
  | deviceReset (r : Request) (f : Fetch)
  | deviceResetBegin
  | identChallenge (r : Request) (f : Fetch)
  | custodySet (r : Request) (f : Fetch)
  | admitMember (r : Request) (f : Fetch)
  | collectWrite (r : Request) (f : Fetch)
  | packetDiscard (ch : Channel) (bytes : List Byte)
  | relayReplyTimeout (k : Nat)
  | controlPipePacket (octet : Nat) (f : ControlFrame)
  | sqTailWrite (q tail : Nat) (mem : List HostWrite)
  | cqHeadWrite (q head : Nat)
  | cmdQueueEnable (q : Nat) (sqBase cqBase : BitVec 64) (sqLog2 cqLog2 : BitVec 4)
  | cmdQueueDisable (q : Nat)
  | inbandCommandTake
  | sbTokenReceive (gen : BitVec 8) (mon : Bool)
  | sbDataReceive (d : SbData)
  | sbClaimReceive (src : Nat) (crcOk : Bool)
  | sbTokenTimeout
  | sbClaimStart
  | sbClaimSend
  | sbRingFault
  | romCheckStart
  | romCheckDone
  | paceSample (pen bank : Nat)
  | avsReadPoll
  | avsResponse (w : BitVec 32)
  | avsNoAckTimeout
  | avsHoldResend
  | ingressFrameStart (port : Nat) (w : WireFrame)
  | headerWindowComplete (port : Nat)
  | penComplete (port seq : Nat)
  | raceTimeout (port : Nat)
  | foldChainCell (frame : Nat)
  | ingressFrameEnd (port : Nat)
  | pauseTimerExpiry (port prio : Nat)
  | flowControlFrameSend (port : Nat)
  | flowControlRefresh (port : Nat)
  | preemptVerifyTimer (port : Nat)
  | preemptVerifyResponse (port : Nat)
  | gateListChange (port : Nat)
  | gateEntryChange (port : Nat)
  | schedSelect (port : Nat) (express : Bool)
  | calendarSlotVisit
  | egressFrameEnd (port : Nat) (express : Bool)
  | exportFrameFlush
  | tsFifoRead
  | linkLoss (port : Nat)
  | linkUp (port : Nat)
  | debounceEnd (port : Nat)
  | portFlushComplete (port : Nat)
  | holdEnd (port : Nat)
  | reqQuotaLimitWrite (req : Nat) (limit : BitVec 22)
  | polStateWrite (pol : Nat) (c e : BitVec 42)
  | carveBlockJoin (block : Nat)
  | foldRecoveryDone
  | learnFilterExpiry (addr : BitVec 48) (fid : Nat)
  | strayNoticeDeliver
  | promoterMove (bucket : Nat)
  | settledSweep
  | slotExpire (slot : Nat)
  | slotFree (slot : Nat)
  | reclaim
  | lanePowerReqWrite (lane : Nat) (req : BitVec 2)
  | laneStateReached (lane : Nat)
  | laneCalTimeout (lane : Nat) (pll : Bool)
  | laneTxeqWrite (lane : Nat) (v : Word)
  | laneRxeqAdaptWrite (lane : Nat) (adapt : BitVec 2)
  | prbsClear (lane : Nat)
  | flockLaneGroupEnd (lane txStuff : Nat) (rxStuff : Option Nat) (viol hdrErr : Nat)
  | amMarkerReceive (lane : Nat) (good : Bool) (seq : Nat) (arrival : Nat)
  | superframeStart (octet start tick : Nat)
  | overheadBlockReceive (octet : Nat) (ctrl : Bool) (faw : BitVec 32) (rest : BitVec 96) (x : Nat)
      (slots : List (Nat × List Block)) (fillers : List (BitVec 128))
  | flockDefectDeclare (octet defect : Nat)
  | flockDefectClear (octet defect : Nat)
  | linkPageSwitch (octet : Nat)
  | txPageSwitch (octet : Nat)
  | rxPageSwitch (octet : Nat)
  | todSetSet (sec : BitVec 48) (ns : BitVec 32) (frac : BitVec 16)
  | todSetStep (step : BitVec 64)
  | servoInWrite (offset : BitVec 64)
  | servoHoldover
  | trefLoss
  | trefLock
  | ppsEdge (falling : Bool)
  | toutEdge (n : Nat)
  | toutPulseEnd (n : Nat)
  | timeRecordSend
  | timeRecordReceive (octet : Nat) (rec : BitVec 256) (errored : Bool)
  | hostRxDeliver (ring : Nat)
  | hostRingHoldExpiry (ring : Nat)
  | ringTailWrite (door : TailPath) (place : Nat) (tail : BitVec 12) (mem : List HostWrite)
  | rxRingEnable (ring : Nat)
  | rxRingDisable (ring : Nat)
  | txRingDisable (ring : Nat)
  | hostTxFetch
  | recordDescriptorWrite (ring : Nat)
  | hostDmaError (fn ring : Nat) (addr : BitVec 64)
  | vectorNotify (v : Nat)
  | vectorHoldoffExpiry (v : Nat)
  | vectorUnmask (w : Unmask)
  | perstNAssert
  | musterTick
  | musterDumpComplete
  | musterChunkResend
  | shepherdChallenge (d : Nat)
  | challengeReply (d : Nat) (params : List Word)
  | challengeTimeout (d : Nat)
  | escalationExpiry (src : Nat)
  | escalationTimerStop (src : Nat)
  | bellwetherToggle
  | tempHigh
  | tempTrip
  | recordClose (seq : Nat)
  | flashProgramDone
  | flashOpFail (block : Nat) (erase : Bool)
  | flashCompaction
  | flashPatrol (found : List PatrolFinding)
  | flashFail (cause : Nat)
  | logRestore
  | resetNAssert
  | resetNDeassert (role : Bool) (devid : BitVec 10)
  | fusesLoaded
  | crookStart
  | selfTestDone (failed : List (Nat × Nat))
  | laneCalibrationDone (lanes plls : List Nat)
  | logAvailable
  | deviceReady
  | versionPrepareResume
  | versionPrepareTimeout
  | flockPrepareTimeout
  | collectReplyTimeout
  | perstNDeassert
  | txRingEnable (ring : Nat)
  | tempHighClear
  | prbsLock (lane : Nat)
  | prbsLockLoss (lane : Nat) (errs : Nat)
  | oversizeCutOff (port : Nat)
  | powerLoss
  deriving DecidableEq, Repr

end Sys2Proof
end

