-- ==== Sys2Proof/Decode.lean ====
section
/-! DEFINITION. Decode.lean: the commands that words spell. spec/opcode_table.json gives no row any bits. -/

namespace Sys2Proof

/-- The command that a word spells by the table's bits: the table gives none, so no word spells one.
DESIGN CHOICE, log entry 1. -/
def decodeTableWord (_nbits _w : Nat) : Option Instr := none

end Sys2Proof
end

