-- ==== Sys2Proof/Config.lean ====
section
/-! DEFINITION. Config.lean: what one GD2048 fixes and the manual leaves open. Every constant is opaque: no proof can
see a value of it, and a claim holds whatever it is. -/

namespace Sys2Proof.Config

/-- The serial number of the fuses (R349, Table FM-2 SERIAL). DESIGN CHOICE, log entry 11. -/
opaque serial : BitVec 128

/-- The public identity key, compressed P-384 point (R349, Table FM-2 KEY). DESIGN CHOICE, log entry 11. -/
opaque identKey : BitVec 392

/-- The signature of IDENT_CHALLENGE over a message (R356): twelve words, word i of the signature of the bytes. The
signing key and the random number of ECDSA are the device's own. -/
opaque sign : List Byte → Nat → Word

/-- Whether a signature (its twelve words) of the bytes verifies under a public key (R357, R363). -/
opaque verify : BitVec 392 → List Byte → List Word → Bool

/-- The n-th BOOT_NONCE drawn (R367, Table SU-2 step 1). -/
opaque bootNonce : Nat → BitVec 64

/-- The n-th challenge nonce the shepherd draws, word i of it (R357). -/
opaque nonce : Nat → Nat → Word

/-- The contents of the microstore (R308): the manual gives the format, not the words. -/
opaque microword : Nat → BitVec 24

/-- The contents of the nanostore (R308). -/
opaque nanoword : Nat → BitVec 144

/-- The microaddress at which a context stands while a command of an opcode waits in it (Table CE-2 UADDR). DESIGN CHOICE,
log entry 77. -/
opaque microAddr : Nat → BitVec 13

/-- The microaddress at which the apply phase of an opcode begins, to which a restart goes back (R313). DESIGN CHOICE, log
entry 77. -/
opaque applyAddr : Nat → BitVec 13

/-- The word address, within its checker, of a word that the manual gives no address for (Table FA-3 ADDR). -/
opaque wordAddr : Nat → BitVec 24

/-- A value the manual leaves open, a fresh one at each index (State.free counts them). -/
opaque freeValue : Nat → Nat

/-- The credits of a pen for frames of the drove, less the first (R90). DESIGN CHOICE, log entry 48. -/
opaque penCredits : Nat → Nat

/-- The credits of the drove for a port, less the first (R199, R302). DESIGN CHOICE, log entry 48. -/
opaque droveCredits : Nat → Nat

/-- The payloads of the superframes that an elastic store starts filled with (R264). DESIGN CHOICE, log entry 110. -/
opaque storeBlock : Nat → BitVec 128

/-- The byte that a frame's extractions, length fields and covered bytes read at an offset past its end (R97, R99, R102).
DESIGN CHOICE, log entry 116. -/
opaque pastEnd : List Byte → Nat → Byte

/-- The EtherType that DECAP writes for an inner mark of a kind that has no EtherType of its own (Table AV-9 step 1). -/
opaque etherType : Nat → BitVec 16

end Sys2Proof.Config
end

