-- ==== Sys2Proof/Machine/Fields.lean ====
section
/-! DEFINITION. Machine/Fields.lean: every object class of the GD2048 (R5, R6: Tables SC-3, LN-1, EP-1, PS-1, PS-2,
FT-1 to FT-3, AV-1, AV-2, FB-1, SQ-1, TM-1, TI-1, FL-1, HP-1, FA-1, ER-1, CE-1, FM-1 and R16, R267) and every
field of every class, with its bits, its access code (R8, Table SC-4) and its reset value (R7), as the
field maps of the chapters give them. A reserved bit belongs to no field (R9).
A field name is the class's name, an underscore, and the manual's own field name. -/

namespace Sys2Proof

/-- The access codes of Table SC-4 (R8). -/
inductive Access where
  | RO | RW | ST | W1C | RCL | WO
  deriving DecidableEq, Repr

/-- The object classes, one constructor for each row of the class tables. -/
inductive Cls where
  | portCfg
  | portFc
  | portPreempt
  | gateCfg
  | gateEntry
  | portStatus
  | portStats
  | statsHalf
  | pcsLane
  | octetCfg
  | laneCfg
  | laneTxeq
  | laneRxeq
  | prbsCtrl
  | prbsCount
  | lanePower
  | laneStatus
  | droveCfg
  | droveStatus
  | probePoint
  | selCtrl
  | selKey
  | selMask
  | shapeCtrl
  | shapeField
  | shapeLayer
  | shapeLchk
  | shapeCchk
  | raceCfg
  | racePort
  | paceStatus
  | paceEvents
  | paceControl
  | emTable
  | emKeyseg
  | emSlot
  | emOvf
  | hitWord
  | emStatus
  | learnCfg
  | learnStatus
  | bankStatus
  | lpmTable
  | lpmWord
  | lpmStatus
  | rulesCfg
  | sliceSeg
  | ruleKey
  | ruleMask
  | ruleCtrl
  | lookupPlan
  | action
  | nextHop
  | group
  | member
  | tplCtrl
  | tplData
  | mirror
  | portAct
  | hashPlan
  | actCfg
  | actStatus
  | versionCfg
  | versionStatus
  | slot
  | foldCfg
  | carve
  | poolStatus
  | prioMap
  | reqQuota
  | reqStatus
  | queueAdm
  | foldStatus
  | portSched
  | classCfg
  | queueCfg
  | shaper
  | policer
  | polState
  | queueStats
  | queueHist
  | telemCfg
  | expHeader
  | telemStatus
  | dropReason
  | dropPort
  | tallyMiss
  | hopCfg
  | counter
  | musterCfg
  | musterList
  | musterStatus
  | timeCfg
  | tod
  | todSet
  | servoIn
  | timeStatus
  | portTs
  | tsFifo
  | tout
  | pps
  | flockTime
  | flockCfg
  | linkCfg
  | conn
  | linkStatus
  | linkCount
  | slotAis
  | hostStatus
  | rxRing
  | txRing
  | queueMap
  | vector
  | musterBuf
  | faultCfg
  | srcCfg
  | srcStatus
  | chkStatus
  | inject
  | faultSummary
  | fatalInfo
  | recCfg
  | recStatus
  | recEntry
  | cmdCfg
  | cmdStatus
  | crookId
  | crookStatus
  | context
  | microword
  | nanoword
  | perfSel
  | perfCnt
  | flashCfg
  | flashStatus
  | flashBlock
  | identStatus
  | identKey
  | roleCfg
  | manifest
  | memberDev
  | route
  | collect
  deriving DecidableEq, Repr

/-- One row of the class tables: the class, its unit code (Table SC-3), class code, object width in bits, and the number of indices. -/
structure ClsRow where
  cls : Cls
  unit : Nat
  code : Nat
  width : Nat
  count : Nat
  deriving DecidableEq, Repr

/-- The row of a class. -/
def Cls.row : Cls → ClsRow
  | .portCfg => ⟨.portCfg, 0x01, 0x01, 64, 1024⟩
  | .portFc => ⟨.portFc, 0x01, 0x02, 128, 1024⟩
  | .portPreempt => ⟨.portPreempt, 0x01, 0x03, 64, 1024⟩
  | .gateCfg => ⟨.gateCfg, 0x01, 0x04, 128, 1024⟩
  | .gateEntry => ⟨.gateEntry, 0x01, 0x05, 64, 262144⟩
  | .portStatus => ⟨.portStatus, 0x01, 0x06, 64, 1024⟩
  | .portStats => ⟨.portStats, 0x01, 0x07, 64, 131072⟩
  | .statsHalf => ⟨.statsHalf, 0x01, 0x08, 128, 1024⟩
  | .pcsLane => ⟨.pcsLane, 0x01, 0x09, 64, 1024⟩
  | .octetCfg => ⟨.octetCfg, 0x02, 0x01, 64, 128⟩
  | .laneCfg => ⟨.laneCfg, 0x02, 0x02, 64, 1024⟩
  | .laneTxeq => ⟨.laneTxeq, 0x02, 0x03, 64, 1024⟩
  | .laneRxeq => ⟨.laneRxeq, 0x02, 0x04, 64, 1024⟩
  | .prbsCtrl => ⟨.prbsCtrl, 0x02, 0x05, 64, 1024⟩
  | .prbsCount => ⟨.prbsCount, 0x02, 0x06, 128, 1024⟩
  | .lanePower => ⟨.lanePower, 0x02, 0x07, 64, 1024⟩
  | .laneStatus => ⟨.laneStatus, 0x02, 0x08, 64, 1024⟩
  | .droveCfg => ⟨.droveCfg, 0x03, 0x01, 128, 1⟩
  | .droveStatus => ⟨.droveStatus, 0x03, 0x02, 128, 1⟩
  | .probePoint => ⟨.probePoint, 0x04, 0x01, 64, 32⟩
  | .selCtrl => ⟨.selCtrl, 0x04, 0x02, 64, 1024⟩
  | .selKey => ⟨.selKey, 0x04, 0x03, 128, 4096⟩
  | .selMask => ⟨.selMask, 0x04, 0x04, 128, 4096⟩
  | .shapeCtrl => ⟨.shapeCtrl, 0x04, 0x05, 64, 1024⟩
  | .shapeField => ⟨.shapeField, 0x04, 0x06, 64, 49152⟩
  | .shapeLayer => ⟨.shapeLayer, 0x04, 0x07, 64, 12288⟩
  | .shapeLchk => ⟨.shapeLchk, 0x04, 0x08, 64, 4096⟩
  | .shapeCchk => ⟨.shapeCchk, 0x04, 0x09, 64, 4096⟩
  | .raceCfg => ⟨.raceCfg, 0x04, 0x0A, 64, 1⟩
  | .racePort => ⟨.racePort, 0x04, 0x0B, 64, 1026⟩
  | .paceStatus => ⟨.paceStatus, 0x04, 0x10, 64, 1⟩
  | .paceEvents => ⟨.paceEvents, 0x04, 0x11, 64, 1⟩
  | .paceControl => ⟨.paceControl, 0x04, 0x12, 64, 1⟩
  | .emTable => ⟨.emTable, 0x05, 0x01, 128, 16⟩
  | .emKeyseg => ⟨.emKeyseg, 0x05, 0x02, 64, 256⟩
  | .emSlot => ⟨.emSlot, 0x05, 0x03, 128, 5242880⟩
  | .emOvf => ⟨.emOvf, 0x05, 0x04, 320, 16384⟩
  | .hitWord => ⟨.hitWord, 0x05, 0x05, 64, 82176⟩
  | .emStatus => ⟨.emStatus, 0x05, 0x06, 128, 1⟩
  | .learnCfg => ⟨.learnCfg, 0x05, 0x07, 64, 1⟩
  | .learnStatus => ⟨.learnStatus, 0x05, 0x08, 128, 1⟩
  | .bankStatus => ⟨.bankStatus, 0x05, 0x09, 64, 1024⟩
  | .lpmTable => ⟨.lpmTable, 0x06, 0x01, 128, 8192⟩
  | .lpmWord => ⟨.lpmWord, 0x06, 0x02, 64, 6291456⟩
  | .lpmStatus => ⟨.lpmStatus, 0x06, 0x03, 64, 1⟩
  | .rulesCfg => ⟨.rulesCfg, 0x07, 0x01, 64, 1⟩
  | .sliceSeg => ⟨.sliceSeg, 0x07, 0x02, 64, 128⟩
  | .ruleKey => ⟨.ruleKey, 0x07, 0x03, 320, 131072⟩
  | .ruleMask => ⟨.ruleMask, 0x07, 0x04, 320, 131072⟩
  | .ruleCtrl => ⟨.ruleCtrl, 0x07, 0x05, 64, 131072⟩
  | .lookupPlan => ⟨.lookupPlan, 0x07, 0x06, 64, 1024⟩
  | .action => ⟨.action, 0x08, 0x01, 192, 1048576⟩
  | .nextHop => ⟨.nextHop, 0x08, 0x02, 128, 262144⟩
  | .group => ⟨.group, 0x08, 0x03, 64, 16384⟩
  | .member => ⟨.member, 0x08, 0x04, 64, 262144⟩
  | .tplCtrl => ⟨.tplCtrl, 0x08, 0x05, 128, 4096⟩
  | .tplData => ⟨.tplData, 0x08, 0x06, 128, 20480⟩
  | .mirror => ⟨.mirror, 0x08, 0x07, 64, 64⟩
  | .portAct => ⟨.portAct, 0x08, 0x08, 64, 1026⟩
  | .hashPlan => ⟨.hashPlan, 0x08, 0x09, 64, 1024⟩
  | .actCfg => ⟨.actCfg, 0x08, 0x0A, 64, 1⟩
  | .actStatus => ⟨.actStatus, 0x08, 0x0B, 128, 1⟩
  | .versionCfg => ⟨.versionCfg, 0x09, 0x01, 64, 1⟩
  | .versionStatus => ⟨.versionStatus, 0x09, 0x02, 128, 1⟩
  | .slot => ⟨.slot, 0x09, 0x03, 64, 4⟩
  | .foldCfg => ⟨.foldCfg, 0x0A, 0x01, 64, 1⟩
  | .carve => ⟨.carve, 0x0A, 0x02, 64, 256⟩
  | .poolStatus => ⟨.poolStatus, 0x0A, 0x03, 128, 4⟩
  | .prioMap => ⟨.prioMap, 0x0A, 0x04, 64, 1024⟩
  | .reqQuota => ⟨.reqQuota, 0x0A, 0x05, 128, 8196⟩
  | .reqStatus => ⟨.reqStatus, 0x0A, 0x06, 128, 8196⟩
  | .queueAdm => ⟨.queueAdm, 0x0A, 0x07, 64, 66048⟩
  | .foldStatus => ⟨.foldStatus, 0x0A, 0x08, 128, 1⟩
  | .portSched => ⟨.portSched, 0x0B, 0x01, 128, 1032⟩
  | .classCfg => ⟨.classCfg, 0x0B, 0x02, 128, 8256⟩
  | .queueCfg => ⟨.queueCfg, 0x0B, 0x03, 128, 66048⟩
  | .shaper => ⟨.shaper, 0x0B, 0x04, 128, 75336⟩
  | .policer => ⟨.policer, 0x0B, 0x05, 128, 262144⟩
  | .polState => ⟨.polState, 0x0B, 0x06, 128, 262144⟩
  | .queueStats => ⟨.queueStats, 0x0B, 0x07, 192, 66048⟩
  | .queueHist => ⟨.queueHist, 0x0B, 0x08, 512, 66048⟩
  | .telemCfg => ⟨.telemCfg, 0x0C, 0x01, 128, 1⟩
  | .expHeader => ⟨.expHeader, 0x0C, 0x02, 128, 4⟩
  | .telemStatus => ⟨.telemStatus, 0x0C, 0x03, 128, 1⟩
  | .dropReason => ⟨.dropReason, 0x0C, 0x04, 128, 32⟩
  | .dropPort => ⟨.dropPort, 0x0C, 0x05, 64, 32800⟩
  | .tallyMiss => ⟨.tallyMiss, 0x0C, 0x06, 256, 16⟩
  | .hopCfg => ⟨.hopCfg, 0x0C, 0x07, 64, 1024⟩
  | .counter => ⟨.counter, 0x0C, 0x08, 128, 1048576⟩
  | .musterCfg => ⟨.musterCfg, 0x0C, 0x09, 128, 1⟩
  | .musterList => ⟨.musterList, 0x0C, 0x0A, 128, 64⟩
  | .musterStatus => ⟨.musterStatus, 0x0C, 0x0B, 64, 1⟩
  | .timeCfg => ⟨.timeCfg, 0x0D, 0x01, 128, 1⟩
  | .tod => ⟨.tod, 0x0D, 0x02, 192, 1⟩
  | .todSet => ⟨.todSet, 0x0D, 0x03, 128, 1⟩
  | .servoIn => ⟨.servoIn, 0x0D, 0x04, 64, 1⟩
  | .timeStatus => ⟨.timeStatus, 0x0D, 0x05, 192, 1⟩
  | .portTs => ⟨.portTs, 0x0D, 0x06, 64, 1024⟩
  | .tsFifo => ⟨.tsFifo, 0x0D, 0x07, 192, 1⟩
  | .tout => ⟨.tout, 0x0D, 0x08, 192, 8⟩
  | .pps => ⟨.pps, 0x0D, 0x09, 192, 1⟩
  | .flockTime => ⟨.flockTime, 0x0D, 0x0A, 128, 1⟩
  | .flockCfg => ⟨.flockCfg, 0x0E, 0x01, 64, 1⟩
  | .linkCfg => ⟨.linkCfg, 0x0E, 0x02, 64, 128⟩
  | .conn => ⟨.conn, 0x0E, 0x03, 64, 32768⟩
  | .linkStatus => ⟨.linkStatus, 0x0E, 0x04, 128, 128⟩
  | .linkCount => ⟨.linkCount, 0x0E, 0x05, 128, 128⟩
  | .slotAis => ⟨.slotAis, 0x0E, 0x06, 128, 128⟩
  | .hostStatus => ⟨.hostStatus, 0x0F, 0x01, 128, 1⟩
  | .rxRing => ⟨.rxRing, 0x0F, 0x02, 128, 257⟩
  | .txRing => ⟨.txRing, 0x0F, 0x03, 128, 256⟩
  | .queueMap => ⟨.queueMap, 0x0F, 0x04, 64, 64⟩
  | .vector => ⟨.vector, 0x0F, 0x05, 64, 2048⟩
  | .musterBuf => ⟨.musterBuf, 0x0F, 0x06, 128, 15⟩
  | .faultCfg => ⟨.faultCfg, 0x10, 0x01, 64, 1⟩
  | .srcCfg => ⟨.srcCfg, 0x10, 0x02, 64, 64⟩
  | .srcStatus => ⟨.srcStatus, 0x10, 0x03, 128, 64⟩
  | .chkStatus => ⟨.chkStatus, 0x10, 0x04, 64, 4294967296⟩
  | .inject => ⟨.inject, 0x10, 0x05, 128, 4⟩
  | .faultSummary => ⟨.faultSummary, 0x10, 0x06, 128, 1⟩
  | .fatalInfo => ⟨.fatalInfo, 0x10, 0x07, 64, 1⟩
  | .recCfg => ⟨.recCfg, 0x11, 0x01, 64, 1⟩
  | .recStatus => ⟨.recStatus, 0x11, 0x02, 128, 1⟩
  | .recEntry => ⟨.recEntry, 0x11, 0x03, 256, 65536⟩
  | .cmdCfg => ⟨.cmdCfg, 0x12, 0x01, 128, 1⟩
  | .cmdStatus => ⟨.cmdStatus, 0x12, 0x02, 128, 1⟩
  | .crookId => ⟨.crookId, 0x12, 0x03, 128, 1⟩
  | .crookStatus => ⟨.crookStatus, 0x12, 0x04, 128, 1⟩
  | .context => ⟨.context, 0x12, 0x05, 64, 16⟩
  | .microword => ⟨.microword, 0x12, 0x06, 64, 8192⟩
  | .nanoword => ⟨.nanoword, 0x12, 0x07, 192, 2048⟩
  | .perfSel => ⟨.perfSel, 0x13, 0x01, 64, 24576⟩
  | .perfCnt => ⟨.perfCnt, 0x13, 0x02, 64, 24576⟩
  | .flashCfg => ⟨.flashCfg, 0x14, 0x01, 64, 1⟩
  | .flashStatus => ⟨.flashStatus, 0x14, 0x02, 128, 1⟩
  | .flashBlock => ⟨.flashBlock, 0x14, 0x03, 64, 16384⟩
  | .identStatus => ⟨.identStatus, 0x15, 0x01, 256, 1⟩
  | .identKey => ⟨.identKey, 0x15, 0x02, 448, 1⟩
  | .roleCfg => ⟨.roleCfg, 0x15, 0x03, 128, 1⟩
  | .manifest => ⟨.manifest, 0x15, 0x04, 384, 1024⟩
  | .memberDev => ⟨.memberDev, 0x15, 0x05, 384, 1024⟩
  | .route => ⟨.route, 0x15, 0x06, 64, 1024⟩
  | .collect => ⟨.collect, 0x15, 0x07, 64, 2⟩

/-- The classes of unit 0x01. -/
def classesPorts : List Cls :=
  [.portCfg, .portFc, .portPreempt, .gateCfg, .gateEntry, .portStatus, .portStats, .statsHalf, .pcsLane]

/-- The classes of unit 0x02. -/
def classesLanes : List Cls :=
  [.octetCfg, .laneCfg, .laneTxeq, .laneRxeq, .prbsCtrl, .prbsCount, .lanePower, .laneStatus]

/-- The classes of unit 0x03. -/
def classesDrove : List Cls :=
  [.droveCfg, .droveStatus]

/-- The classes of unit 0x04. -/
def classesPens : List Cls :=
  [.probePoint, .selCtrl, .selKey, .selMask, .shapeCtrl, .shapeField, .shapeLayer, .shapeLchk, .shapeCchk, .raceCfg, .racePort, .paceStatus, .paceEvents, .paceControl]

/-- The classes of unit 0x05. -/
def classesEm : List Cls :=
  [.emTable, .emKeyseg, .emSlot, .emOvf, .hitWord, .emStatus, .learnCfg, .learnStatus, .bankStatus]

/-- The classes of unit 0x06. -/
def classesLpm : List Cls :=
  [.lpmTable, .lpmWord, .lpmStatus]

/-- The classes of unit 0x07. -/
def classesRules : List Cls :=
  [.rulesCfg, .sliceSeg, .ruleKey, .ruleMask, .ruleCtrl, .lookupPlan]

/-- The classes of unit 0x08. -/
def classesActions : List Cls :=
  [.action, .nextHop, .group, .member, .tplCtrl, .tplData, .mirror, .portAct, .hashPlan, .actCfg, .actStatus]

/-- The classes of unit 0x09. -/
def classesVersions : List Cls :=
  [.versionCfg, .versionStatus, .slot]

/-- The classes of unit 0x0A. -/
def classesFold : List Cls :=
  [.foldCfg, .carve, .poolStatus, .prioMap, .reqQuota, .reqStatus, .queueAdm, .foldStatus]

/-- The classes of unit 0x0B. -/
def classesSched : List Cls :=
  [.portSched, .classCfg, .queueCfg, .shaper, .policer, .polState, .queueStats, .queueHist]

/-- The classes of unit 0x0C. -/
def classesTelem : List Cls :=
  [.telemCfg, .expHeader, .telemStatus, .dropReason, .dropPort, .tallyMiss, .hopCfg, .counter, .musterCfg, .musterList, .musterStatus]

/-- The classes of unit 0x0D. -/
def classesTime : List Cls :=
  [.timeCfg, .tod, .todSet, .servoIn, .timeStatus, .portTs, .tsFifo, .tout, .pps, .flockTime]

/-- The classes of unit 0x0E. -/
def classesFlock : List Cls :=
  [.flockCfg, .linkCfg, .conn, .linkStatus, .linkCount, .slotAis]

/-- The classes of unit 0x0F. -/
def classesHostUnit : List Cls :=
  [.hostStatus, .rxRing, .txRing, .queueMap, .vector, .musterBuf]

/-- The classes of unit 0x10. -/
def classesFault : List Cls :=
  [.faultCfg, .srcCfg, .srcStatus, .chkStatus, .inject, .faultSummary, .fatalInfo]

/-- The classes of unit 0x11. -/
def classesRecorder : List Cls :=
  [.recCfg, .recStatus, .recEntry]

/-- The classes of unit 0x12. -/
def classesCrook : List Cls :=
  [.cmdCfg, .cmdStatus, .crookId, .crookStatus, .context, .microword, .nanoword]

/-- The classes of unit 0x13. -/
def classesPerf : List Cls :=
  [.perfSel, .perfCnt]

/-- The classes of unit 0x14. -/
def classesFlash : List Cls :=
  [.flashCfg, .flashStatus, .flashBlock]

/-- The classes of unit 0x15. -/
def classesIdent : List Cls :=
  [.identStatus, .identKey, .roleCfg, .manifest, .memberDev, .route, .collect]

/-- The classes of a unit code (Table SC-3), none for a reserved code (R6). -/
def classesOf : Nat → List Cls
  | 0x01 => classesPorts
  | 0x02 => classesLanes
  | 0x03 => classesDrove
  | 0x04 => classesPens
  | 0x05 => classesEm
  | 0x06 => classesLpm
  | 0x07 => classesRules
  | 0x08 => classesActions
  | 0x09 => classesVersions
  | 0x0A => classesFold
  | 0x0B => classesSched
  | 0x0C => classesTelem
  | 0x0D => classesTime
  | 0x0E => classesFlock
  | 0x0F => classesHostUnit
  | 0x10 => classesFault
  | 0x11 => classesRecorder
  | 0x12 => classesCrook
  | 0x13 => classesPerf
  | 0x14 => classesFlash
  | 0x15 => classesIdent
  | _ => []

/-- A field of an object class: its bits hi:lo, its access code and its reset value. -/
structure Fld where
  cls : Cls
  hi : Nat
  lo : Nat
  acc : Access
  rst : Nat
  deriving DecidableEq, Repr

namespace F

def portCfg_SPEED : Fld := ⟨.portCfg, 63, 60, .ST, 0⟩
def portCfg_NLANES : Fld := ⟨.portCfg, 59, 58, .ST, 0⟩
def portCfg_FEC : Fld := ⟨.portCfg, 57, 56, .ST, 0⟩
def portCfg_ENABLE : Fld := ⟨.portCfg, 55, 55, .ST, 0⟩
def portCfg_CT_EN : Fld := ⟨.portCfg, 54, 54, .ST, 0⟩
def portCfg_MAX_FRAME : Fld := ⟨.portCfg, 53, 40, .ST, 0x5F2⟩
def portCfg_DEBOUNCE : Fld := ⟨.portCfg, 39, 26, .ST, 0x3E8⟩
def portCfg_HOLD : Fld := ⟨.portCfg, 25, 9, .ST, 0x2710⟩

def portFc_FC_MODE : Fld := ⟨.portFc, 127, 126, .ST, 0⟩
def portFc_PFC_TX_MASK : Fld := ⟨.portFc, 125, 118, .ST, 0⟩
def portFc_PFC_RX_MASK : Fld := ⟨.portFc, 117, 110, .ST, 0⟩
def portFc_PAUSE_TX : Fld := ⟨.portFc, 109, 109, .ST, 0⟩
def portFc_PAUSE_RX : Fld := ⟨.portFc, 108, 108, .ST, 0⟩
def portFc_QUANTA : Fld := ⟨.portFc, 107, 92, .ST, 0xFFFF⟩
def portFc_REFRESH : Fld := ⟨.portFc, 91, 76, .ST, 0x7FFF⟩
def portFc_TC_PRIO : Fld := ⟨.portFc, 71, 48, .ST, 0xFAC688⟩
def portFc_SRC_MAC : Fld := ⟨.portFc, 47, 0, .ST, 0⟩

def portPreempt_PREEMPT_EN : Fld := ⟨.portPreempt, 63, 63, .ST, 0⟩
def portPreempt_VERIFY_DIS : Fld := ⟨.portPreempt, 62, 62, .ST, 0⟩
def portPreempt_VERIFY_TIME : Fld := ⟨.portPreempt, 61, 54, .ST, 10⟩
def portPreempt_ADD_FRAG : Fld := ⟨.portPreempt, 53, 52, .ST, 0⟩
def portPreempt_PREEMPTABLE_TC : Fld := ⟨.portPreempt, 51, 44, .ST, 0⟩

def gateCfg_GATE_EN : Fld := ⟨.gateCfg, 127, 127, .ST, 0⟩
def gateCfg_LIST_LEN : Fld := ⟨.gateCfg, 126, 118, .ST, 1⟩
def gateCfg_BASE_NS : Fld := ⟨.gateCfg, 117, 88, .ST, 0⟩
def gateCfg_BASE_SEC : Fld := ⟨.gateCfg, 87, 40, .ST, 0⟩
def gateCfg_CYCLE_TIME : Fld := ⟨.gateCfg, 39, 8, .ST, 0xF4240⟩

def gateEntry_GATES : Fld := ⟨.gateEntry, 63, 56, .ST, 0xFF⟩
def gateEntry_OP : Fld := ⟨.gateEntry, 55, 54, .ST, 0⟩
def gateEntry_INTERVAL : Fld := ⟨.gateEntry, 53, 24, .ST, 0⟩

def portStatus_STATE : Fld := ⟨.portStatus, 63, 61, .RO, 0⟩
def portStatus_LINK : Fld := ⟨.portStatus, 60, 60, .RO, 0⟩
def portStatus_LOCAL_FAULT : Fld := ⟨.portStatus, 59, 59, .RO, 0⟩
def portStatus_REMOTE_FAULT : Fld := ⟨.portStatus, 58, 58, .RO, 0⟩
def portStatus_HI_BER : Fld := ⟨.portStatus, 57, 57, .RO, 0⟩
def portStatus_FEC_LOCK : Fld := ⟨.portStatus, 56, 56, .RO, 0⟩
def portStatus_RX_PAUSED : Fld := ⟨.portStatus, 55, 48, .RO, 0⟩
def portStatus_TX_XOFF : Fld := ⟨.portStatus, 47, 40, .RO, 0⟩
def portStatus_VERIFY : Fld := ⟨.portStatus, 39, 38, .RO, 0⟩
def portStatus_PREEMPT_ACTIVE : Fld := ⟨.portStatus, 37, 37, .RO, 0⟩
def portStatus_GATE_PENDING : Fld := ⟨.portStatus, 36, 36, .RO, 0⟩
def portStatus_LINK_DOWNS : Fld := ⟨.portStatus, 31, 16, .RCL, 0⟩
def portStatus_BOUNCES : Fld := ⟨.portStatus, 15, 0, .RCL, 0⟩

def portStats_WRAPPED : Fld := ⟨.portStats, 40, 40, .W1C, 0⟩
def portStats_VALUE : Fld := ⟨.portStats, 39, 0, .RW, 0⟩

def statsHalf_HALF : Fld := ⟨.statsHalf, 127, 0, .W1C, 0⟩

def pcsLane_AM_LOCK : Fld := ⟨.pcsLane, 63, 63, .RO, 0⟩
def pcsLane_SKEW : Fld := ⟨.pcsLane, 55, 48, .RO, 0⟩
def pcsLane_BIP_ERR : Fld := ⟨.pcsLane, 31, 0, .RCL, 0⟩

def octetCfg_MODE : Fld := ⟨.octetCfg, 63, 62, .ST, 0⟩

def laneCfg_RATE : Fld := ⟨.laneCfg, 63, 60, .ST, 0⟩
def laneCfg_TX_INV : Fld := ⟨.laneCfg, 59, 59, .ST, 0⟩
def laneCfg_RX_INV : Fld := ⟨.laneCfg, 58, 58, .ST, 0⟩
def laneCfg_PRECODE_TX : Fld := ⟨.laneCfg, 57, 57, .ST, 0⟩
def laneCfg_PRECODE_RX : Fld := ⟨.laneCfg, 56, 56, .ST, 0⟩
def laneCfg_LOOPBACK : Fld := ⟨.laneCfg, 55, 54, .ST, 0⟩

def laneTxeq_PRE3 : Fld := ⟨.laneTxeq, 63, 58, .RW, 0⟩
def laneTxeq_PRE2 : Fld := ⟨.laneTxeq, 57, 52, .RW, 0⟩
def laneTxeq_PRE1 : Fld := ⟨.laneTxeq, 51, 46, .RW, 0x3A⟩
def laneTxeq_MAIN : Fld := ⟨.laneTxeq, 45, 40, .RW, 0x33⟩
def laneTxeq_POST1 : Fld := ⟨.laneTxeq, 39, 34, .RW, 0x3A⟩
def laneTxeq_TRAIN_EN : Fld := ⟨.laneTxeq, 33, 33, .RW, 1⟩

def laneRxeq_ADAPT : Fld := ⟨.laneRxeq, 63, 62, .RW, 0⟩
def laneRxeq_CTLE : Fld := ⟨.laneRxeq, 61, 57, .RO, 0⟩
def laneRxeq_SNR : Fld := ⟨.laneRxeq, 56, 49, .RO, 0⟩
def laneRxeq_EYE_MV : Fld := ⟨.laneRxeq, 48, 39, .RO, 0⟩

def prbsCtrl_TX_PATTERN : Fld := ⟨.prbsCtrl, 63, 60, .RW, 0⟩
def prbsCtrl_RX_PATTERN : Fld := ⟨.prbsCtrl, 59, 56, .RW, 0⟩
def prbsCtrl_CLEAR : Fld := ⟨.prbsCtrl, 55, 55, .WO, 0⟩

def prbsCount_BIT_COUNT : Fld := ⟨.prbsCount, 127, 80, .RO, 0⟩
def prbsCount_ERR_COUNT : Fld := ⟨.prbsCount, 79, 32, .RO, 0⟩
def prbsCount_LOCK : Fld := ⟨.prbsCount, 2, 2, .RO, 0⟩
def prbsCount_BIT_SAT : Fld := ⟨.prbsCount, 1, 1, .RO, 0⟩
def prbsCount_ERR_SAT : Fld := ⟨.prbsCount, 0, 0, .RO, 0⟩

def lanePower_REQ : Fld := ⟨.lanePower, 63, 62, .RW, 2⟩
def lanePower_STATE : Fld := ⟨.lanePower, 61, 60, .RO, 2⟩
def lanePower_MOVING : Fld := ⟨.lanePower, 59, 59, .RO, 0⟩
def lanePower_CAL_FAIL : Fld := ⟨.lanePower, 58, 58, .RO, 0⟩

def laneStatus_SIG_DET : Fld := ⟨.laneStatus, 63, 63, .RO, 0⟩
def laneStatus_CDR_LOCK : Fld := ⟨.laneStatus, 62, 62, .RO, 0⟩
def laneStatus_AM_LOCK : Fld := ⟨.laneStatus, 61, 61, .RO, 0⟩
def laneStatus_STUFF_OVR_S : Fld := ⟨.laneStatus, 60, 60, .W1C, 0⟩
def laneStatus_STUFF_VIOL_S : Fld := ⟨.laneStatus, 59, 59, .W1C, 0⟩
def laneStatus_DESKEW_FAIL : Fld := ⟨.laneStatus, 58, 58, .RO, 0⟩
def laneStatus_SKEW : Fld := ⟨.laneStatus, 55, 48, .RO, 0⟩
def laneStatus_STUFF_OVR : Fld := ⟨.laneStatus, 47, 40, .RCL, 0⟩
def laneStatus_STUFF_VIOL : Fld := ⟨.laneStatus, 39, 32, .RCL, 0⟩
def laneStatus_HDR_ERR : Fld := ⟨.laneStatus, 31, 0, .RCL, 0⟩

def droveCfg_PEN_MASK : Fld := ⟨.droveCfg, 127, 32, .ST, 0xFFFFFFFFFFFFFFFFFFFFFFFF⟩

def droveStatus_ACTIVE : Fld := ⟨.droveStatus, 127, 32, .RO, 0xFFFFFFFFFFFFFFFFFFFFFFFF⟩
def droveStatus_NACTIVE : Fld := ⟨.droveStatus, 6, 0, .RO, 0x60⟩

def probePoint_SRC : Fld := ⟨.probePoint, 63, 63, .ST, 0⟩
def probePoint_OFFSET : Fld := ⟨.probePoint, 62, 55, .ST, 0⟩

def selCtrl_VALID : Fld := ⟨.selCtrl, 63, 63, .ST, 0⟩
def selCtrl_SHAPE : Fld := ⟨.selCtrl, 62, 53, .ST, 0⟩

def selKey_KEY : Fld := ⟨.selKey, 127, 0, .ST, 0⟩

def selMask_MASK : Fld := ⟨.selMask, 127, 0, .ST, 0⟩

def shapeCtrl_VALID : Fld := ⟨.shapeCtrl, 63, 63, .ST, 0⟩
def shapeCtrl_DEPTH : Fld := ⟨.shapeCtrl, 62, 54, .ST, 14⟩
def shapeCtrl_NFIELDS : Fld := ⟨.shapeCtrl, 53, 48, .ST, 0⟩
def shapeCtrl_NLAYERS : Fld := ⟨.shapeCtrl, 47, 44, .ST, 0⟩
def shapeCtrl_MAL_ACTION : Fld := ⟨.shapeCtrl, 43, 42, .ST, 0⟩
def shapeCtrl_LM_ACTION : Fld := ⟨.shapeCtrl, 41, 40, .ST, 0⟩
def shapeCtrl_PRED_CHECK : Fld := ⟨.shapeCtrl, 39, 37, .ST, 7⟩
def shapeCtrl_PRED_DEFAULT : Fld := ⟨.shapeCtrl, 36, 23, .ST, 0x800⟩

def shapeField_OFFSET : Fld := ⟨.shapeField, 63, 56, .ST, 0⟩
def shapeField_START : Fld := ⟨.shapeField, 55, 53, .ST, 0⟩
def shapeField_WIDTH : Fld := ⟨.shapeField, 52, 45, .ST, 0⟩

def shapeLayer_OFFSET : Fld := ⟨.shapeLayer, 63, 56, .ST, 0⟩
def shapeLayer_KIND : Fld := ⟨.shapeLayer, 55, 50, .ST, 0⟩
def shapeLayer_INNER : Fld := ⟨.shapeLayer, 49, 49, .ST, 0⟩

def shapeLchk_MODE : Fld := ⟨.shapeLchk, 63, 61, .ST, 0⟩
def shapeLchk_BASE : Fld := ⟨.shapeLchk, 60, 53, .ST, 0⟩
def shapeLchk_FOFF : Fld := ⟨.shapeLchk, 52, 45, .ST, 0⟩
def shapeLchk_FWIDTH : Fld := ⟨.shapeLchk, 44, 43, .ST, 0⟩
def shapeLchk_SCALE : Fld := ⟨.shapeLchk, 42, 41, .ST, 0⟩
def shapeLchk_ADD : Fld := ⟨.shapeLchk, 40, 31, .ST, 0⟩
def shapeLchk_REF : Fld := ⟨.shapeLchk, 30, 29, .ST, 0⟩
def shapeLchk_CONST : Fld := ⟨.shapeLchk, 28, 20, .ST, 0⟩

def shapeCchk_MODE : Fld := ⟨.shapeCchk, 63, 62, .ST, 0⟩
def shapeCchk_OFFSET : Fld := ⟨.shapeCchk, 61, 54, .ST, 0⟩
def shapeCchk_LEN : Fld := ⟨.shapeCchk, 53, 45, .ST, 0⟩
def shapeCchk_REF : Fld := ⟨.shapeCchk, 44, 43, .ST, 0⟩

def raceCfg_RACE_TIMEOUT : Fld := ⟨.raceCfg, 63, 54, .ST, 0x100⟩

def racePort_HEAD_SEQ : Fld := ⟨.racePort, 63, 48, .RO, 0⟩
def racePort_NEXT_SEQ : Fld := ⟨.racePort, 47, 32, .RO, 0⟩
def racePort_TIMEOUTS : Fld := ⟨.racePort, 31, 16, .RCL, 0⟩
def racePort_LATE : Fld := ⟨.racePort, 15, 8, .RCL, 0⟩
def racePort_WIN_STALLS : Fld := ⟨.racePort, 7, 0, .RCL, 0⟩

def paceStatus_PEN_PACE : Fld := ⟨.paceStatus, 63, 48, .RO, 0⟩
def paceStatus_BANK_PACE : Fld := ⟨.paceStatus, 47, 32, .RO, 0⟩
def paceStatus_VCORE_REQ : Fld := ⟨.paceStatus, 31, 22, .RO, 0x2EE⟩
def paceStatus_VCORE_ACK : Fld := ⟨.paceStatus, 21, 12, .RO, 0x2EE⟩
def paceStatus_PACE_LOW : Fld := ⟨.paceStatus, 3, 3, .RO, 0⟩
def paceStatus_AT_LIMIT : Fld := ⟨.paceStatus, 2, 2, .RO, 0⟩
def paceStatus_STATE : Fld := ⟨.paceStatus, 1, 0, .RO, 0⟩

def paceEvents_LOW_EPISODES : Fld := ⟨.paceEvents, 63, 32, .RCL, 0⟩
def paceEvents_AVS_FAIL_S : Fld := ⟨.paceEvents, 2, 2, .W1C, 0⟩
def paceEvents_LIMIT_S : Fld := ⟨.paceEvents, 1, 1, .W1C, 0⟩
def paceEvents_PACE_LOW_S : Fld := ⟨.paceEvents, 0, 0, .W1C, 0⟩

def paceControl_VCORE_MAX : Fld := ⟨.paceControl, 63, 54, .ST, 0x334⟩
def paceControl_VCORE_MIN : Fld := ⟨.paceControl, 53, 44, .ST, 0x2A8⟩
def paceControl_VCORE_FIXED : Fld := ⟨.paceControl, 43, 34, .ST, 0x2EE⟩
def paceControl_MARGIN : Fld := ⟨.paceControl, 33, 26, .ST, 0x1E⟩
def paceControl_AVS_ENABLE : Fld := ⟨.paceControl, 0, 0, .ST, 1⟩

def emTable_SEED : Fld := ⟨.emTable, 127, 96, .ST, 0⟩
def emTable_VALID : Fld := ⟨.emTable, 95, 95, .ST, 0⟩
def emTable_WIDE : Fld := ⟨.emTable, 94, 94, .ST, 0⟩
def emTable_KIND : Fld := ⟨.emTable, 93, 92, .ST, 0⟩
def emTable_MISS_DROP : Fld := ⟨.emTable, 91, 91, .ST, 0⟩
def emTable_MISS_ADD_FID : Fld := ⟨.emTable, 90, 90, .ST, 0⟩
def emTable_MISS_RESULT : Fld := ⟨.emTable, 89, 68, .ST, 0⟩
def emTable_STRAY_EN : Fld := ⟨.emTable, 67, 67, .ST, 0⟩

def emKeyseg_SRC : Fld := ⟨.emKeyseg, 63, 58, .ST, 0⟩
def emKeyseg_LSB : Fld := ⟨.emKeyseg, 57, 51, .ST, 0⟩
def emKeyseg_WIDTH : Fld := ⟨.emKeyseg, 50, 43, .ST, 0⟩

def emSlot_VALID : Fld := ⟨.emSlot, 127, 127, .RO, 0⟩
def emSlot_WIDE : Fld := ⟨.emSlot, 126, 126, .RO, 0⟩
def emSlot_KIND : Fld := ⟨.emSlot, 125, 124, .RO, 0⟩
def emSlot_TABLE : Fld := ⟨.emSlot, 123, 120, .RO, 0⟩
def emSlot_OPEN : Fld := ⟨.emSlot, 119, 119, .RO, 0⟩
def emSlot_SETTLED : Fld := ⟨.emSlot, 118, 118, .RO, 0⟩
def emSlot_BORN : Fld := ⟨.emSlot, 117, 102, .RO, 0⟩
def emSlot_RETIRED : Fld := ⟨.emSlot, 101, 86, .RO, 0⟩
def emSlot_RESULT : Fld := ⟨.emSlot, 85, 64, .RO, 0⟩
def emSlot_KEY : Fld := ⟨.emSlot, 63, 0, .RO, 0⟩

def emOvf_USED : Fld := ⟨.emOvf, 319, 319, .RO, 0⟩
def emOvf_HOME : Fld := ⟨.emOvf, 318, 298, .RO, 0⟩
def emOvf_ENTRY : Fld := ⟨.emOvf, 255, 0, .RO, 0⟩

def hitWord_HITS : Fld := ⟨.hitWord, 63, 0, .RCL, 0⟩

def emStatus_SLOTS_USED : Fld := ⟨.emStatus, 127, 105, .RO, 0⟩
def emStatus_OVF_USED : Fld := ⟨.emStatus, 104, 90, .RO, 0⟩
def emStatus_PROMOTE_PENDING : Fld := ⟨.emStatus, 89, 75, .RO, 0⟩
def emStatus_MOVES : Fld := ⟨.emStatus, 74, 43, .RCL, 0⟩
def emStatus_INSERT_FAIL : Fld := ⟨.emStatus, 42, 11, .RCL, 0⟩

def learnCfg_DEST : Fld := ⟨.learnCfg, 63, 62, .ST, 0⟩
def learnCfg_RING : Fld := ⟨.learnCfg, 61, 54, .ST, 0⟩

def learnStatus_NOTICES : Fld := ⟨.learnStatus, 127, 96, .RCL, 0⟩
def learnStatus_SUPPRESSED : Fld := ⟨.learnStatus, 95, 64, .RCL, 0⟩
def learnStatus_MOVES : Fld := ⟨.learnStatus, 63, 48, .RCL, 0⟩
def learnStatus_LOST : Fld := ⟨.learnStatus, 47, 32, .RCL, 0⟩
def learnStatus_UNFILTERED : Fld := ⟨.learnStatus, 31, 16, .RCL, 0⟩
def learnStatus_FILTER_USED : Fld := ⟨.learnStatus, 12, 0, .RO, 0⟩

def bankStatus_QUEUE_FULL : Fld := ⟨.bankStatus, 63, 32, .RCL, 0⟩

def lpmTable_ENABLE : Fld := ⟨.lpmTable, 127, 127, .ST, 0⟩
def lpmTable_PROFILE : Fld := ⟨.lpmTable, 126, 125, .ST, 0⟩
def lpmTable_NEXT_ROOT : Fld := ⟨.lpmTable, 124, 102, .RW, 0⟩
def lpmTable_ROOT3 : Fld := ⟨.lpmTable, 101, 79, .RO, 0⟩
def lpmTable_ROOT2 : Fld := ⟨.lpmTable, 78, 56, .RO, 0⟩
def lpmTable_ROOT1 : Fld := ⟨.lpmTable, 55, 33, .RO, 0⟩
def lpmTable_ROOT0 : Fld := ⟨.lpmTable, 32, 10, .RO, 0⟩

def lpmWord_SLOTS : Fld := ⟨.lpmWord, 63, 0, .RW, 0⟩

def lpmStatus_BAD_PTR : Fld := ⟨.lpmStatus, 63, 32, .RCL, 0⟩
def lpmStatus_LOOKUPS_K : Fld := ⟨.lpmStatus, 31, 0, .RO, 0⟩

def rulesCfg_LONG_EN : Fld := ⟨.rulesCfg, 63, 63, .ST, 0⟩
def rulesCfg_LONG_SLICE : Fld := ⟨.rulesCfg, 62, 59, .ST, 15⟩

def sliceSeg_SRC : Fld := ⟨.sliceSeg, 63, 58, .ST, 0⟩
def sliceSeg_LSB : Fld := ⟨.sliceSeg, 57, 51, .ST, 0⟩
def sliceSeg_WIDTH : Fld := ⟨.sliceSeg, 50, 43, .ST, 0⟩

def ruleKey_KEY : Fld := ⟨.ruleKey, 319, 0, .RW, 0⟩

def ruleMask_MASK : Fld := ⟨.ruleMask, 319, 0, .RW, 0⟩

def ruleCtrl_VALID : Fld := ⟨.ruleCtrl, 63, 63, .RO, 0⟩
def ruleCtrl_OPEN : Fld := ⟨.ruleCtrl, 62, 62, .RO, 0⟩
def ruleCtrl_SETTLED : Fld := ⟨.ruleCtrl, 61, 61, .RO, 0⟩
def ruleCtrl_BORN : Fld := ⟨.ruleCtrl, 60, 45, .RO, 0⟩
def ruleCtrl_RETIRED : Fld := ⟨.ruleCtrl, 44, 29, .RO, 0⟩
def ruleCtrl_RESULT : Fld := ⟨.ruleCtrl, 28, 7, .RO, 0⟩

def lookupPlan_VALID : Fld := ⟨.lookupPlan, 63, 63, .ST, 0⟩
def lookupPlan_FWD : Fld := ⟨.lookupPlan, 62, 61, .ST, 0⟩
def lookupPlan_CLS_EN : Fld := ⟨.lookupPlan, 60, 60, .ST, 0⟩
def lookupPlan_CLS_SLICE : Fld := ⟨.lookupPlan, 59, 56, .ST, 0⟩
def lookupPlan_ACL_SLICES : Fld := ⟨.lookupPlan, 55, 40, .ST, 0⟩
def lookupPlan_DST_TABLE : Fld := ⟨.lookupPlan, 39, 36, .ST, 0⟩
def lookupPlan_SRC_EN : Fld := ⟨.lookupPlan, 35, 35, .ST, 0⟩
def lookupPlan_SRC_TABLE : Fld := ⟨.lookupPlan, 34, 31, .ST, 0⟩
def lookupPlan_FAMILY : Fld := ⟨.lookupPlan, 30, 30, .ST, 0⟩
def lookupPlan_ADDR_SLOT : Fld := ⟨.lookupPlan, 29, 24, .ST, 0⟩
def lookupPlan_TALLY0_EN : Fld := ⟨.lookupPlan, 23, 23, .ST, 0⟩
def lookupPlan_TALLY0_TABLE : Fld := ⟨.lookupPlan, 22, 19, .ST, 0⟩
def lookupPlan_TALLY1_EN : Fld := ⟨.lookupPlan, 18, 18, .ST, 0⟩
def lookupPlan_TALLY1_TABLE : Fld := ⟨.lookupPlan, 17, 14, .ST, 0⟩

def action_STATE : Fld := ⟨.action, 191, 190, .RO, 0⟩
def action_RETIRED : Fld := ⟨.action, 189, 174, .RO, 0⟩
def action_FWD : Fld := ⟨.action, 173, 152, .RW, 0⟩
def action_DROP : Fld := ⟨.action, 151, 151, .RW, 0⟩
def action_TRAP : Fld := ⟨.action, 150, 150, .RW, 0⟩
def action_COPY_HOST : Fld := ⟨.action, 149, 149, .RW, 0⟩
def action_RECIRC : Fld := ⟨.action, 148, 148, .RW, 0⟩
def action_SET_CTX : Fld := ⟨.action, 147, 147, .RW, 0⟩
def action_FID : Fld := ⟨.action, 146, 133, .RW, 0⟩
def action_VRF : Fld := ⟨.action, 132, 121, .RW, 0⟩
def action_TC_EN : Fld := ⟨.action, 120, 120, .RW, 0⟩
def action_TC : Fld := ⟨.action, 119, 117, .RW, 0⟩
def action_POL_EN : Fld := ⟨.action, 116, 116, .RW, 0⟩
def action_POLICER : Fld := ⟨.action, 115, 98, .RW, 0⟩
def action_CNT_EN : Fld := ⟨.action, 97, 97, .RW, 0⟩
def action_COUNTER : Fld := ⟨.action, 96, 77, .RW, 0⟩
def action_MIR_EN : Fld := ⟨.action, 76, 76, .RW, 0⟩
def action_MIRROR : Fld := ⟨.action, 75, 70, .RW, 0⟩
def action_TPL_EN : Fld := ⟨.action, 69, 69, .RW, 0⟩
def action_TEMPLATE : Fld := ⟨.action, 68, 57, .RW, 0⟩

def nextHop_STATE : Fld := ⟨.nextHop, 127, 126, .RO, 0⟩
def nextHop_RETIRED : Fld := ⟨.nextHop, 125, 110, .RO, 0⟩
def nextHop_EGRESS : Fld := ⟨.nextHop, 109, 88, .RW, 0⟩
def nextHop_TPL_EN : Fld := ⟨.nextHop, 87, 87, .RW, 0⟩
def nextHop_TEMPLATE : Fld := ⟨.nextHop, 86, 75, .RW, 0⟩
def nextHop_DEC_TTL : Fld := ⟨.nextHop, 74, 74, .RW, 0⟩
def nextHop_DMAC : Fld := ⟨.nextHop, 73, 26, .RW, 0⟩
def nextHop_SET_DMAC : Fld := ⟨.nextHop, 25, 25, .RW, 0⟩

def group_STATE : Fld := ⟨.group, 63, 62, .RO, 0⟩
def group_RETIRED : Fld := ⟨.group, 61, 46, .RO, 0⟩
def group_BASE : Fld := ⟨.group, 45, 28, .RW, 0⟩
def group_SIZE : Fld := ⟨.group, 27, 18, .RW, 1⟩
def group_LAG : Fld := ⟨.group, 17, 17, .RW, 0⟩

def member_REF : Fld := ⟨.member, 63, 42, .RW, 0⟩

def tplCtrl_STATE : Fld := ⟨.tplCtrl, 127, 126, .RO, 0⟩
def tplCtrl_RETIRED : Fld := ⟨.tplCtrl, 125, 110, .RO, 0⟩
def tplCtrl_DECAP : Fld := ⟨.tplCtrl, 109, 109, .RW, 0⟩
def tplCtrl_ENCAP : Fld := ⟨.tplCtrl, 108, 107, .RW, 0⟩
def tplCtrl_POP_VLAN : Fld := ⟨.tplCtrl, 106, 105, .RW, 0⟩
def tplCtrl_PUSH_VLAN : Fld := ⟨.tplCtrl, 104, 103, .RW, 0⟩
def tplCtrl_POP_MPLS : Fld := ⟨.tplCtrl, 102, 101, .RW, 0⟩
def tplCtrl_PUSH_MPLS : Fld := ⟨.tplCtrl, 100, 99, .RW, 0⟩
def tplCtrl_COPY_TTL : Fld := ⟨.tplCtrl, 98, 98, .RW, 0⟩
def tplCtrl_SET_SMAC : Fld := ⟨.tplCtrl, 97, 97, .RW, 0⟩
def tplCtrl_SMAC : Fld := ⟨.tplCtrl, 96, 49, .RW, 0⟩
def tplCtrl_INS_LEN : Fld := ⟨.tplCtrl, 48, 42, .RW, 0⟩
def tplCtrl_IP_OFF : Fld := ⟨.tplCtrl, 41, 35, .RW, 0⟩
def tplCtrl_UDP_OFF : Fld := ⟨.tplCtrl, 34, 28, .RW, 0⟩
def tplCtrl_OUTER_V6 : Fld := ⟨.tplCtrl, 27, 27, .RW, 0⟩
def tplCtrl_ENTROPY : Fld := ⟨.tplCtrl, 26, 26, .RW, 0⟩

def tplData_DATA : Fld := ⟨.tplData, 127, 0, .RW, 0⟩

def mirror_VALID : Fld := ⟨.mirror, 63, 63, .ST, 0⟩
def mirror_EGRESS : Fld := ⟨.mirror, 62, 62, .ST, 0⟩
def mirror_DEST : Fld := ⟨.mirror, 61, 40, .ST, 0⟩
def mirror_TRUNC : Fld := ⟨.mirror, 39, 26, .ST, 0⟩
def mirror_TC : Fld := ⟨.mirror, 25, 23, .ST, 0⟩
def mirror_SAMPLE : Fld := ⟨.mirror, 22, 7, .ST, 0⟩

def portAct_LAG_EN : Fld := ⟨.portAct, 63, 63, .ST, 0⟩
def portAct_LAG_GROUP : Fld := ⟨.portAct, 62, 49, .ST, 0⟩
def portAct_STP_BLOCK : Fld := ⟨.portAct, 48, 48, .ST, 0⟩

def hashPlan_FIELDS : Fld := ⟨.hashPlan, 63, 16, .ST, 0⟩
def hashPlan_PORT : Fld := ⟨.hashPlan, 15, 15, .ST, 0⟩

def actCfg_HASH_SEED : Fld := ⟨.actCfg, 63, 32, .ST, 0⟩

def actStatus_BAD_REF : Fld := ⟨.actStatus, 127, 96, .RCL, 0⟩
def actStatus_EDIT_FAIL : Fld := ⟨.actStatus, 95, 64, .RCL, 0⟩
def actStatus_RECIRC_LIMIT : Fld := ⟨.actStatus, 63, 32, .RCL, 0⟩
def actStatus_MIRROR_CAPPED : Fld := ⟨.actStatus, 31, 0, .RCL, 0⟩

def versionCfg_COMMIT_TIMEOUT : Fld := ⟨.versionCfg, 63, 44, .ST, 0x3E8⟩
def versionCfg_DRAIN_LIMIT : Fld := ⟨.versionCfg, 43, 27, .ST, 0x64⟩

def versionStatus_STAGED_VER : Fld := ⟨.versionStatus, 127, 112, .RO, 1⟩
def versionStatus_OLDEST_VER : Fld := ⟨.versionStatus, 111, 96, .RO, 0⟩
def versionStatus_CURRENT : Fld := ⟨.versionStatus, 95, 94, .RO, 0⟩
def versionStatus_OCCUPIED : Fld := ⟨.versionStatus, 93, 90, .RO, 1⟩
def versionStatus_COMMIT_WAIT : Fld := ⟨.versionStatus, 89, 89, .RO, 0⟩
def versionStatus_COMMITS : Fld := ⟨.versionStatus, 63, 40, .RCL, 0⟩
def versionStatus_BUSY : Fld := ⟨.versionStatus, 39, 24, .RCL, 0⟩
def versionStatus_EXPIRED : Fld := ⟨.versionStatus, 23, 0, .RCL, 0⟩

def slot_STATE : Fld := ⟨.slot, 63, 62, .RO, 0⟩
def slot_VER : Fld := ⟨.slot, 61, 46, .RO, 0⟩
def slot_HOLDERS : Fld := ⟨.slot, 45, 22, .RO, 0⟩
def slot_AGE_US : Fld := ⟨.slot, 21, 0, .RO, 0⟩

def foldCfg_CHAIN_RESERVE : Fld := ⟨.foldCfg, 63, 48, .ST, 0x400⟩
def foldCfg_PUSH_EN : Fld := ⟨.foldCfg, 47, 47, .ST, 1⟩

def carve_POOL : Fld := ⟨.carve, 63, 62, .ST, 1⟩
def carve_LIVE_POOL : Fld := ⟨.carve, 61, 60, .RO, 1⟩
def carve_DRAINING : Fld := ⟨.carve, 59, 59, .RO, 0⟩
def carve_CELLS_USED : Fld := ⟨.carve, 58, 45, .RO, 0⟩

def poolStatus_BLOCKS : Fld := ⟨.poolStatus, 127, 119, .RO, 0⟩
def poolStatus_DRAIN_BLOCKS : Fld := ⟨.poolStatus, 118, 110, .RO, 0⟩
def poolStatus_CELLS_FREE : Fld := ⟨.poolStatus, 109, 88, .RO, 0⟩
def poolStatus_SPILLS : Fld := ⟨.poolStatus, 63, 32, .RCL, 0⟩
def poolStatus_POOL_EMPTY : Fld := ⟨.poolStatus, 31, 0, .RCL, 0⟩

def prioMap_PCP_MAP : Fld := ⟨.prioMap, 63, 40, .ST, 0xFAC688⟩
def prioMap_DEFAULT_PRIO : Fld := ⟨.prioMap, 39, 37, .ST, 0⟩

def reqQuota_LIMIT : Fld := ⟨.reqQuota, 127, 106, .RW, 0x200000⟩
def reqQuota_RESERVE : Fld := ⟨.reqQuota, 105, 84, .ST, 0⟩
def reqQuota_HEADROOM : Fld := ⟨.reqQuota, 83, 62, .ST, 0⟩
def reqQuota_XOFF_WM : Fld := ⟨.reqQuota, 61, 40, .ST, 0x800⟩
def reqQuota_XON_WM : Fld := ⟨.reqQuota, 39, 18, .ST, 0x600⟩
def reqQuota_ALPHA : Fld := ⟨.reqQuota, 17, 14, .ST, 7⟩
def reqQuota_LOSSLESS : Fld := ⟨.reqQuota, 13, 13, .ST, 0⟩

def reqStatus_USED : Fld := ⟨.reqStatus, 127, 106, .RO, 0⟩
def reqStatus_HDRM_USED : Fld := ⟨.reqStatus, 105, 84, .RO, 0⟩
def reqStatus_XOFF : Fld := ⟨.reqStatus, 83, 83, .RO, 0⟩
def reqStatus_OVER_QUOTA : Fld := ⟨.reqStatus, 82, 82, .RO, 0⟩
def reqStatus_DROPS : Fld := ⟨.reqStatus, 63, 32, .RCL, 0⟩
def reqStatus_OVER_EV : Fld := ⟨.reqStatus, 31, 16, .RCL, 0⟩
def reqStatus_LOSSLESS_DROPS : Fld := ⟨.reqStatus, 15, 0, .RCL, 0⟩

def queueAdm_PUSH_RANK : Fld := ⟨.queueAdm, 63, 61, .ST, 0⟩
def queueAdm_Q_BU : Fld := ⟨.queueAdm, 60, 39, .RO, 0⟩
def queueAdm_Q_FRAMES : Fld := ⟨.queueAdm, 38, 17, .RO, 0⟩

def foldStatus_SHARED_BU : Fld := ⟨.foldStatus, 127, 106, .RO, 0x200000⟩
def foldStatus_SHARED_FREE : Fld := ⟨.foldStatus, 105, 83, .RO, 0x200000⟩
def foldStatus_UNIFORM : Fld := ⟨.foldStatus, 82, 82, .RO, 1⟩
def foldStatus_RECOVERING : Fld := ⟨.foldStatus, 81, 81, .RO, 0⟩
def foldStatus_LEN_SHORT : Fld := ⟨.foldStatus, 63, 48, .RCL, 0⟩
def foldStatus_LEN_MISMATCH : Fld := ⟨.foldStatus, 47, 32, .RCL, 0⟩
def foldStatus_CHAIN_FAIL : Fld := ⟨.foldStatus, 31, 16, .RCL, 0⟩
def foldStatus_PUSHOUTS : Fld := ⟨.foldStatus, 15, 0, .RCL, 0⟩

def portSched_V_CLASS : Fld := ⟨.portSched, 127, 80, .RO, 0⟩
def portSched_HIST_MODE : Fld := ⟨.portSched, 79, 79, .ST, 0⟩
def portSched_HIST_BASE : Fld := ⟨.portSched, 78, 63, .ST, 0x40⟩
def portSched_PAUSED_TC : Fld := ⟨.portSched, 62, 55, .RO, 0⟩

def classCfg_STRICT : Fld := ⟨.classCfg, 127, 127, .ST, 0⟩
def classCfg_C_WEIGHT : Fld := ⟨.classCfg, 126, 114, .ST, 1⟩
def classCfg_FIRST_Q : Fld := ⟨.classCfg, 113, 108, .ST, 0⟩
def classCfg_NQ : Fld := ⟨.classCfg, 107, 101, .ST, 8⟩
def classCfg_V_QUEUE : Fld := ⟨.classCfg, 100, 53, .RO, 0⟩
def classCfg_C_FINISH : Fld := ⟨.classCfg, 52, 5, .RO, 0⟩
def classCfg_BACKLOG : Fld := ⟨.classCfg, 4, 4, .RO, 0⟩

def queueCfg_WEIGHT : Fld := ⟨.queueCfg, 127, 115, .ST, 1⟩
def queueCfg_FINISH : Fld := ⟨.queueCfg, 114, 67, .RO, 0⟩
def queueCfg_BACKLOG : Fld := ⟨.queueCfg, 66, 66, .RO, 0⟩
def queueCfg_MOVING : Fld := ⟨.queueCfg, 65, 65, .RO, 0⟩
def queueCfg_CUR_TC : Fld := ⟨.queueCfg, 64, 62, .RO, 0⟩

def shaper_EN : Fld := ⟨.shaper, 127, 127, .ST, 0⟩
def shaper_RATE : Fld := ⟨.shaper, 126, 103, .ST, 0⟩
def shaper_BURST : Fld := ⟨.shaper, 102, 79, .ST, 0x2800⟩
def shaper_CREDIT : Fld := ⟨.shaper, 78, 37, .RO, 0⟩
def shaper_WAITING : Fld := ⟨.shaper, 36, 36, .RO, 0⟩
def shaper_SLOT : Fld := ⟨.shaper, 35, 24, .RO, 0⟩

def policer_MODE : Fld := ⟨.policer, 127, 125, .ST, 0⟩
def policer_AWARE : Fld := ⟨.policer, 124, 124, .ST, 0⟩
def policer_RED_DROP : Fld := ⟨.policer, 123, 123, .ST, 1⟩
def policer_NG_TC_EN : Fld := ⟨.policer, 122, 122, .ST, 0⟩
def policer_NG_TC : Fld := ⟨.policer, 121, 119, .ST, 0⟩
def policer_CIR : Fld := ⟨.policer, 118, 95, .ST, 0⟩
def policer_PIR : Fld := ⟨.policer, 94, 71, .ST, 0⟩
def policer_CBS : Fld := ⟨.policer, 70, 47, .ST, 0x2800⟩
def policer_EBS : Fld := ⟨.policer, 46, 23, .ST, 0⟩

def polState_BKT_C : Fld := ⟨.polState, 127, 86, .RW, 0⟩
def polState_BKT_E : Fld := ⟨.polState, 85, 44, .RW, 0⟩
def polState_LAST_COLOUR : Fld := ⟨.polState, 43, 42, .RO, 0⟩
def polState_RED_FRAMES : Fld := ⟨.polState, 41, 10, .RCL, 0⟩

def queueStats_DEPTH_MIN : Fld := ⟨.queueStats, 191, 170, .RCL, 0⟩
def queueStats_DEPTH_MAX : Fld := ⟨.queueStats, 169, 148, .RCL, 0⟩
def queueStats_DEPTH_LAST : Fld := ⟨.queueStats, 147, 126, .RO, 0⟩
def queueStats_DELAY_MIN : Fld := ⟨.queueStats, 125, 94, .RCL, 0⟩
def queueStats_DELAY_MAX : Fld := ⟨.queueStats, 93, 62, .RCL, 0⟩
def queueStats_DELAY_LAST : Fld := ⟨.queueStats, 61, 30, .RO, 0⟩
def queueStats_DEPTH_SAMPLED : Fld := ⟨.queueStats, 29, 29, .RCL, 0⟩
def queueStats_DELAY_SAMPLED : Fld := ⟨.queueStats, 28, 28, .RCL, 0⟩

def queueHist_BIN15 : Fld := ⟨.queueHist, 511, 480, .RCL, 0⟩
def queueHist_BIN14 : Fld := ⟨.queueHist, 479, 448, .RCL, 0⟩
def queueHist_BIN13 : Fld := ⟨.queueHist, 447, 416, .RCL, 0⟩
def queueHist_BIN12 : Fld := ⟨.queueHist, 415, 384, .RCL, 0⟩
def queueHist_BIN11 : Fld := ⟨.queueHist, 383, 352, .RCL, 0⟩
def queueHist_BIN10 : Fld := ⟨.queueHist, 351, 320, .RCL, 0⟩
def queueHist_BIN9 : Fld := ⟨.queueHist, 319, 288, .RCL, 0⟩
def queueHist_BIN8 : Fld := ⟨.queueHist, 287, 256, .RCL, 0⟩
def queueHist_BIN7 : Fld := ⟨.queueHist, 255, 224, .RCL, 0⟩
def queueHist_BIN6 : Fld := ⟨.queueHist, 223, 192, .RCL, 0⟩
def queueHist_BIN5 : Fld := ⟨.queueHist, 191, 160, .RCL, 0⟩
def queueHist_BIN4 : Fld := ⟨.queueHist, 159, 128, .RCL, 0⟩
def queueHist_BIN3 : Fld := ⟨.queueHist, 127, 96, .RCL, 0⟩
def queueHist_BIN2 : Fld := ⟨.queueHist, 95, 64, .RCL, 0⟩
def queueHist_BIN1 : Fld := ⟨.queueHist, 63, 32, .RCL, 0⟩
def queueHist_BIN0 : Fld := ⟨.queueHist, 31, 0, .RCL, 0⟩

def telemCfg_EXP_DEST : Fld := ⟨.telemCfg, 127, 126, .ST, 0⟩
def telemCfg_DROP_MASK : Fld := ⟨.telemCfg, 125, 94, .ST, 0x3FFFFE⟩
def telemCfg_SENT_SAMPLE : Fld := ⟨.telemCfg, 93, 78, .ST, 0⟩
def telemCfg_EXP_RATE : Fld := ⟨.telemCfg, 77, 70, .ST, 0xC8⟩
def telemCfg_EXP_BURST : Fld := ⟨.telemCfg, 69, 56, .ST, 0x1000⟩
def telemCfg_EXP_MAXREC : Fld := ⟨.telemCfg, 55, 48, .ST, 0x1D⟩
def telemCfg_EXP_HDR_LEN : Fld := ⟨.telemCfg, 47, 41, .ST, 0⟩
def telemCfg_EXP_FLUSH : Fld := ⟨.telemCfg, 40, 31, .ST, 10⟩
def telemCfg_EXP_QUEUE : Fld := ⟨.telemCfg, 30, 15, .ST, 0⟩
def telemCfg_EXP_IP_OFF : Fld := ⟨.telemCfg, 14, 9, .ST, 0⟩
def telemCfg_EXP_UDP_OFF : Fld := ⟨.telemCfg, 8, 3, .ST, 0⟩
def telemCfg_EXP_IP_V6 : Fld := ⟨.telemCfg, 2, 2, .ST, 0⟩

def expHeader_BYTES : Fld := ⟨.expHeader, 127, 0, .ST, 0⟩

def telemStatus_NEXT_EXP_SEQ : Fld := ⟨.telemStatus, 127, 96, .RO, 0⟩
def telemStatus_SENT_NOT_EXPORTED : Fld := ⟨.telemStatus, 95, 64, .RCL, 0⟩
def telemStatus_EXP_FRAMES : Fld := ⟨.telemStatus, 63, 32, .RCL, 0⟩
def telemStatus_EXP_FRAMES_LOST : Fld := ⟨.telemStatus, 31, 16, .RCL, 0⟩
def telemStatus_FIFO_PEAK : Fld := ⟨.telemStatus, 13, 0, .RCL, 0⟩

def dropReason_DROPS : Fld := ⟨.dropReason, 127, 64, .RO, 0⟩
def dropReason_NOT_EXPORTED : Fld := ⟨.dropReason, 63, 0, .RO, 0⟩

def dropPort_WRAPPED : Fld := ⟨.dropPort, 48, 48, .W1C, 0⟩
def dropPort_VALUE : Fld := ⟨.dropPort, 47, 0, .RW, 0⟩

def tallyMiss_MISS_FRAMES : Fld := ⟨.tallyMiss, 255, 192, .RO, 0⟩
def tallyMiss_MISS_BYTES : Fld := ⟨.tallyMiss, 191, 128, .RO, 0⟩
def tallyMiss_RECL_FRAMES : Fld := ⟨.tallyMiss, 127, 64, .RO, 0⟩
def tallyMiss_RECL_BYTES : Fld := ⟨.tallyMiss, 63, 0, .RO, 0⟩

def hopCfg_HOP_EN : Fld := ⟨.hopCfg, 63, 63, .ST, 0⟩
def hopCfg_DOMAIN : Fld := ⟨.hopCfg, 62, 47, .ST, 0⟩

def counter_PACKETS : Fld := ⟨.counter, 127, 64, .RW, 0⟩
def counter_BYTES : Fld := ⟨.counter, 63, 0, .RW, 0⟩

def musterCfg_EN : Fld := ⟨.musterCfg, 127, 127, .ST, 0⟩
def musterCfg_DEST : Fld := ⟨.musterCfg, 126, 125, .ST, 0⟩
def musterCfg_INTERVAL : Fld := ⟨.musterCfg, 124, 99, .ST, 0xF4240⟩
def musterCfg_NLIST : Fld := ⟨.musterCfg, 98, 92, .ST, 1⟩
def musterCfg_NBUF : Fld := ⟨.musterCfg, 91, 88, .ST, 2⟩

def musterList_UNIT : Fld := ⟨.musterList, 127, 120, .ST, 0⟩
def musterList_CLASS : Fld := ⟨.musterList, 119, 112, .ST, 0⟩
def musterList_FIRST : Fld := ⟨.musterList, 111, 80, .ST, 0⟩
def musterList_COUNT : Fld := ⟨.musterList, 79, 56, .ST, 1⟩

def musterStatus_RELEASE_SEQ : Fld := ⟨.musterStatus, 63, 32, .RW, 0⟩
def musterStatus_SKIPPED : Fld := ⟨.musterStatus, 31, 16, .RCL, 0⟩

def timeCfg_TREF_SEL : Fld := ⟨.timeCfg, 127, 126, .ST, 2⟩
def timeCfg_SRC : Fld := ⟨.timeCfg, 125, 124, .ST, 0⟩
def timeCfg_KP : Fld := ⟨.timeCfg, 123, 108, .ST, 0x100⟩
def timeCfg_KI : Fld := ⟨.timeCfg, 107, 92, .ST, 0x10⟩
def timeCfg_FREQ_LIMIT : Fld := ⟨.timeCfg, 91, 68, .ST, 0x186A0⟩
def timeCfg_STEP_THRESH : Fld := ⟨.timeCfg, 67, 36, .ST, 0x3E8⟩
def timeCfg_SAMPLE_TIMEOUT : Fld := ⟨.timeCfg, 35, 20, .ST, 0xBB8⟩

def tod_SEC : Fld := ⟨.tod, 191, 144, .RO, 0⟩
def tod_NS : Fld := ⟨.tod, 143, 112, .RO, 0⟩
def tod_FRAC : Fld := ⟨.tod, 111, 96, .RO, 0⟩
def tod_FRC : Fld := ⟨.tod, 95, 32, .RO, 0⟩
def tod_FRC_FRAC : Fld := ⟨.tod, 31, 16, .RO, 0⟩

def todSet_OP : Fld := ⟨.todSet, 127, 126, .WO, 0⟩
def todSet_SEC : Fld := ⟨.todSet, 125, 78, .WO, 0⟩
def todSet_NS : Fld := ⟨.todSet, 77, 46, .WO, 0⟩
def todSet_FRAC : Fld := ⟨.todSet, 45, 30, .WO, 0⟩
def todSet_STEP : Fld := ⟨.todSet, 125, 62, .WO, 0⟩

def servoIn_OFFSET : Fld := ⟨.servoIn, 63, 0, .WO, 0⟩

def timeStatus_FREQ_ADJ : Fld := ⟨.timeStatus, 191, 152, .RO, 0⟩
def timeStatus_INTEG : Fld := ⟨.timeStatus, 151, 112, .RO, 0⟩
def timeStatus_LAST_OFFSET : Fld := ⟨.timeStatus, 111, 80, .RO, 0⟩
def timeStatus_STATE : Fld := ⟨.timeStatus, 79, 78, .RO, 0⟩
def timeStatus_TREF_LOCK : Fld := ⟨.timeStatus, 77, 77, .RO, 0⟩
def timeStatus_TREF_LOST_S : Fld := ⟨.timeStatus, 76, 76, .W1C, 0⟩
def timeStatus_SAMPLES : Fld := ⟨.timeStatus, 63, 48, .RCL, 0⟩
def timeStatus_STEPS : Fld := ⟨.timeStatus, 47, 32, .RCL, 0⟩
def timeStatus_TS_SKIPPED : Fld := ⟨.timeStatus, 31, 16, .RCL, 0⟩
def timeStatus_CAPTURE_LOST : Fld := ⟨.timeStatus, 15, 0, .RCL, 0⟩

def portTs_TC_MODE : Fld := ⟨.portTs, 63, 62, .ST, 0⟩
def portTs_RX_ADJ : Fld := ⟨.portTs, 61, 46, .ST, 0⟩
def portTs_TX_ADJ : Fld := ⟨.portTs, 45, 30, .ST, 0⟩
def portTs_LINK_DELAY : Fld := ⟨.portTs, 29, 6, .RW, 0⟩

def tsFifo_VALID : Fld := ⟨.tsFifo, 191, 191, .RCL, 0⟩
def tsFifo_OUTCOME : Fld := ⟨.tsFifo, 190, 189, .RCL, 0⟩
def tsFifo_PORT : Fld := ⟨.tsFifo, 188, 178, .RCL, 0⟩
def tsFifo_TAG : Fld := ⟨.tsFifo, 177, 162, .RCL, 0⟩
def tsFifo_SEC : Fld := ⟨.tsFifo, 161, 114, .RCL, 0⟩
def tsFifo_NS : Fld := ⟨.tsFifo, 113, 82, .RCL, 0⟩
def tsFifo_FRAC : Fld := ⟨.tsFifo, 81, 66, .RCL, 0⟩

def tout_EN : Fld := ⟨.tout, 191, 191, .ST, 0⟩
def tout_POL : Fld := ⟨.tout, 190, 190, .ST, 0⟩
def tout_MISSED : Fld := ⟨.tout, 189, 189, .W1C, 0⟩
def tout_START_SEC : Fld := ⟨.tout, 188, 141, .ST, 0⟩
def tout_START_NS : Fld := ⟨.tout, 140, 111, .ST, 0⟩
def tout_PERIOD : Fld := ⟨.tout, 110, 79, .ST, 0⟩
def tout_WIDTH : Fld := ⟨.tout, 78, 49, .ST, 0x64⟩
def tout_EDGES : Fld := ⟨.tout, 48, 17, .RCL, 0⟩

def pps_EN : Fld := ⟨.pps, 191, 191, .ST, 0⟩
def pps_EDGE : Fld := ⟨.pps, 190, 190, .ST, 0⟩
def pps_DELAY : Fld := ⟨.pps, 189, 158, .ST, 0⟩
def pps_CAP_SEC : Fld := ⟨.pps, 157, 110, .RO, 0⟩
def pps_CAP_NS : Fld := ⟨.pps, 109, 78, .RO, 0⟩
def pps_CAP_FRAC : Fld := ⟨.pps, 77, 62, .RO, 0⟩
def pps_COUNT : Fld := ⟨.pps, 61, 46, .RCL, 0⟩
def pps_GLITCH : Fld := ⟨.pps, 45, 30, .RCL, 0⟩

def flockTime_UPSTREAM : Fld := ⟨.flockTime, 127, 121, .ST, 0⟩
def flockTime_SYNC_INTERVAL : Fld := ⟨.flockTime, 120, 101, .ST, 0x3E8⟩
def flockTime_ASYM : Fld := ⟨.flockTime, 100, 69, .ST, 0⟩
def flockTime_MEAN_DELAY : Fld := ⟨.flockTime, 68, 37, .RO, 0⟩
def flockTime_HOPS : Fld := ⟨.flockTime, 36, 31, .RO, 0x3F⟩
def flockTime_IGNORED : Fld := ⟨.flockTime, 30, 15, .RCL, 0⟩

def flockCfg_SF_SRC : Fld := ⟨.flockCfg, 63, 62, .ST, 0⟩
def flockCfg_SF_OCTET : Fld := ⟨.flockCfg, 61, 55, .ST, 0⟩
def flockCfg_DEVICES : Fld := ⟨.flockCfg, 54, 44, .ST, 1⟩
def flockCfg_SF_HOLDOVER : Fld := ⟨.flockCfg, 43, 43, .RO, 0⟩

def linkCfg_EN : Fld := ⟨.linkCfg, 63, 63, .ST, 0⟩
def linkCfg_SWITCH : Fld := ⟨.linkCfg, 62, 62, .WO, 0⟩

def conn_TX_TYPE : Fld := ⟨.conn, 63, 61, .RW, 0⟩
def conn_XC_OCTET : Fld := ⟨.conn, 60, 54, .RW, 0⟩
def conn_XC_SLOT : Fld := ⟨.conn, 53, 47, .RW, 0⟩
def conn_RX_TYPE : Fld := ⟨.conn, 46, 45, .RW, 0⟩

def linkStatus_IN_FRAME : Fld := ⟨.linkStatus, 127, 127, .RO, 0⟩
def linkStatus_LOS : Fld := ⟨.linkStatus, 126, 126, .RO, 0⟩
def linkStatus_LOF : Fld := ⟨.linkStatus, 125, 125, .RO, 0⟩
def linkStatus_LOM : Fld := ⟨.linkStatus, 124, 124, .RO, 0⟩
def linkStatus_AIS : Fld := ⟨.linkStatus, 123, 123, .RO, 0⟩
def linkStatus_RDI : Fld := ⟨.linkStatus, 122, 122, .RO, 0⟩
def linkStatus_LOS_S : Fld := ⟨.linkStatus, 121, 121, .W1C, 0⟩
def linkStatus_LOF_S : Fld := ⟨.linkStatus, 120, 120, .W1C, 0⟩
def linkStatus_LOM_S : Fld := ⟨.linkStatus, 119, 119, .W1C, 0⟩
def linkStatus_AIS_S : Fld := ⟨.linkStatus, 118, 118, .W1C, 0⟩
def linkStatus_RDI_S : Fld := ⟨.linkStatus, 117, 117, .W1C, 0⟩
def linkStatus_TX_PAGE : Fld := ⟨.linkStatus, 116, 116, .RO, 0⟩
def linkStatus_RX_PAGE : Fld := ⟨.linkStatus, 115, 115, .RO, 0⟩
def linkStatus_SWITCH_PENDING : Fld := ⟨.linkStatus, 114, 114, .RO, 0⟩
def linkStatus_PEER_VALID : Fld := ⟨.linkStatus, 113, 113, .RO, 0⟩
def linkStatus_PEER_DEVID : Fld := ⟨.linkStatus, 112, 103, .RO, 0⟩
def linkStatus_PEER_OCTET : Fld := ⟨.linkStatus, 102, 96, .RO, 0⟩
def linkStatus_RX_MFC : Fld := ⟨.linkStatus, 95, 88, .RO, 0⟩

def linkCount_BIP_ERR : Fld := ⟨.linkCount, 127, 96, .RCL, 0⟩
def linkCount_JUST_POS : Fld := ⟨.linkCount, 95, 72, .RCL, 0⟩
def linkCount_JUST_NEG : Fld := ⟨.linkCount, 71, 48, .RCL, 0⟩
def linkCount_SLIPS : Fld := ⟨.linkCount, 47, 32, .RCL, 0⟩
def linkCount_BLK_ERR : Fld := ⟨.linkCount, 31, 16, .RCL, 0⟩
def linkCount_FAW_ERR : Fld := ⟨.linkCount, 15, 8, .RCL, 0⟩
def linkCount_HUNTS : Fld := ⟨.linkCount, 7, 0, .RCL, 0⟩

def slotAis_AIS : Fld := ⟨.slotAis, 127, 0, .RO, 0⟩

def hostStatus_LINK_GEN : Fld := ⟨.hostStatus, 127, 125, .RO, 0⟩
def hostStatus_LINK_WIDTH : Fld := ⟨.hostStatus, 124, 121, .RO, 0⟩
def hostStatus_DMA_ERR_S : Fld := ⟨.hostStatus, 120, 120, .W1C, 0⟩
def hostStatus_RING_DROPS : Fld := ⟨.hostStatus, 95, 64, .RCL, 0⟩
def hostStatus_ABORTS : Fld := ⟨.hostStatus, 63, 32, .RCL, 0⟩
def hostStatus_TX_BAD : Fld := ⟨.hostStatus, 31, 0, .RCL, 0⟩

def rxRing_BASE : Fld := ⟨.rxRing, 127, 64, .RW, 0⟩
def rxRing_EN : Fld := ⟨.rxRing, 63, 63, .RW, 0⟩
def rxRing_QUIESCED : Fld := ⟨.rxRing, 62, 62, .RO, 1⟩
def rxRing_TYPE : Fld := ⟨.rxRing, 61, 60, .RW, 0⟩
def rxRing_LOG2 : Fld := ⟨.rxRing, 59, 56, .RW, 4⟩
def rxRing_BUF_UNITS : Fld := ⟨.rxRing, 55, 49, .RW, 0x10⟩
def rxRing_HOLD : Fld := ⟨.rxRing, 48, 36, .RW, 0x64⟩
def rxRing_HEAD : Fld := ⟨.rxRing, 35, 24, .RO, 0⟩
def rxRing_TAIL : Fld := ⟨.rxRing, 23, 12, .RW, 0⟩

def txRing_BASE : Fld := ⟨.txRing, 127, 64, .RW, 0⟩
def txRing_EN : Fld := ⟨.txRing, 63, 63, .RW, 0⟩
def txRing_QUIESCED : Fld := ⟨.txRing, 62, 62, .RO, 1⟩
def txRing_LOG2 : Fld := ⟨.txRing, 59, 56, .RW, 4⟩
def txRing_HEAD : Fld := ⟨.txRing, 35, 24, .RO, 0⟩
def txRing_TAIL : Fld := ⟨.txRing, 23, 12, .RW, 0⟩

def queueMap_BASE_RING : Fld := ⟨.queueMap, 63, 56, .ST, 0⟩
def queueMap_NRINGS : Fld := ⟨.queueMap, 55, 47, .ST, 1⟩

def vector_HOLDOFF : Fld := ⟨.vector, 63, 48, .RW, 0x10⟩
def vector_COUNT : Fld := ⟨.vector, 47, 36, .RW, 0x20⟩
def vector_PENDING : Fld := ⟨.vector, 35, 24, .RO, 0⟩

def musterBuf_ADDR : Fld := ⟨.musterBuf, 127, 64, .ST, 0⟩
def musterBuf_PAGES : Fld := ⟨.musterBuf, 63, 42, .ST, 0⟩

def faultCfg_INJ_FULL : Fld := ⟨.faultCfg, 63, 63, .ST, 0⟩

def srcCfg_ACTION : Fld := ⟨.srcCfg, 63, 62, .ST, 0⟩
def srcCfg_TRANSIENT_OK : Fld := ⟨.srcCfg, 61, 61, .ST, 0⟩
def srcCfg_NOTIFY : Fld := ⟨.srcCfg, 60, 60, .ST, 1⟩
def srcCfg_WINDOW : Fld := ⟨.srcCfg, 59, 36, .ST, 0x186A0⟩

def srcStatus_LIVE : Fld := ⟨.srcStatus, 127, 127, .RO, 0⟩
def srcStatus_STICKY : Fld := ⟨.srcStatus, 126, 126, .W1C, 0⟩
def srcStatus_PENDING : Fld := ⟨.srcStatus, 125, 125, .RO, 0⟩
def srcStatus_ESCALATED : Fld := ⟨.srcStatus, 124, 124, .W1C, 0⟩
def srcStatus_INJ_SEEN : Fld := ⟨.srcStatus, 123, 123, .W1C, 0⟩
def srcStatus_REAL_INJ : Fld := ⟨.srcStatus, 122, 122, .W1C, 0⟩
def srcStatus_LAST_INST : Fld := ⟨.srcStatus, 121, 90, .RO, 0⟩
def srcStatus_TIMER_LEFT : Fld := ⟨.srcStatus, 89, 66, .RO, 0⟩
def srcStatus_COUNT : Fld := ⟨.srcStatus, 65, 50, .RCL, 0⟩
def srcStatus_LAST_SYNDROME : Fld := ⟨.srcStatus, 49, 42, .RO, 0⟩
def srcStatus_NPEND : Fld := ⟨.srcStatus, 41, 38, .RO, 0⟩

def chkStatus_CE : Fld := ⟨.chkStatus, 63, 48, .RCL, 0⟩
def chkStatus_UE : Fld := ⟨.chkStatus, 47, 32, .RCL, 0⟩
def chkStatus_SYNDROME : Fld := ⟨.chkStatus, 31, 24, .RO, 0⟩
def chkStatus_ADDR : Fld := ⟨.chkStatus, 23, 0, .RO, 0⟩

def inject_CHECKER : Fld := ⟨.inject, 127, 96, .RO, 0⟩
def inject_LEFT : Fld := ⟨.inject, 95, 80, .RO, 0⟩
def inject_ARMED : Fld := ⟨.inject, 79, 79, .RO, 0⟩

def faultSummary_LIVE : Fld := ⟨.faultSummary, 127, 64, .RO, 0⟩
def faultSummary_STICKY : Fld := ⟨.faultSummary, 63, 0, .RO, 0⟩

def fatalInfo_FATAL : Fld := ⟨.fatalInfo, 63, 63, .RO, 0⟩
def fatalInfo_SOURCE : Fld := ⟨.fatalInfo, 62, 55, .RO, 0⟩
def fatalInfo_INST : Fld := ⟨.fatalInfo, 54, 23, .RO, 0⟩

def recCfg_COLLAPSE_MS : Fld := ⟨.recCfg, 63, 54, .ST, 10⟩
def recCfg_NOTIFY_EACH : Fld := ⟨.recCfg, 53, 53, .ST, 0⟩

def recStatus_LOG_ID : Fld := ⟨.recStatus, 127, 96, .RO, 0⟩
def recStatus_FIRST_SEQ : Fld := ⟨.recStatus, 95, 64, .RO, 0⟩
def recStatus_LAST_SEQ : Fld := ⟨.recStatus, 63, 32, .RO, 0⟩
def recStatus_FULL : Fld := ⟨.recStatus, 31, 31, .RO, 0⟩
def recStatus_FLUSHED : Fld := ⟨.recStatus, 30, 30, .RO, 0⟩
def recStatus_SOURCE : Fld := ⟨.recStatus, 29, 28, .RO, 0⟩
def recStatus_LOST_EVENTS : Fld := ⟨.recStatus, 15, 0, .RCL, 0⟩

def recEntry_RECORD : Fld := ⟨.recEntry, 255, 0, .RO, 0⟩

def cmdCfg_CMD_MAC : Fld := ⟨.cmdCfg, 127, 80, .ST, 0⟩
def cmdCfg_INB_EN : Fld := ⟨.cmdCfg, 79, 79, .ST, 0⟩
def cmdCfg_SB_EN : Fld := ⟨.cmdCfg, 78, 78, .ST, 1⟩
def cmdCfg_REPLY_TC : Fld := ⟨.cmdCfg, 77, 75, .ST, 7⟩

def cmdStatus_ACCEPTED : Fld := ⟨.cmdStatus, 127, 96, .RCL, 0⟩
def cmdStatus_AUTH_FAIL : Fld := ⟨.cmdStatus, 95, 80, .RCL, 0⟩
def cmdStatus_REPLAY : Fld := ⟨.cmdStatus, 79, 64, .RCL, 0⟩
def cmdStatus_MALFORMED : Fld := ⟨.cmdStatus, 63, 48, .RCL, 0⟩
def cmdStatus_TOKENS_NEW : Fld := ⟨.cmdStatus, 47, 32, .RCL, 0⟩
def cmdStatus_INFLIGHT : Fld := ⟨.cmdStatus, 31, 23, .RO, 0⟩
def cmdStatus_SB_STATE : Fld := ⟨.cmdStatus, 22, 21, .RO, 0⟩
def cmdStatus_SB_MONITOR : Fld := ⟨.cmdStatus, 20, 11, .RO, 0⟩
def cmdStatus_REPLY_LOST : Fld := ⟨.cmdStatus, 10, 0, .RCL, 0⟩

def crookId_ROM_ID : Fld := ⟨.crookId, 127, 96, .RO, 0x47440103⟩
def crookId_ROM_CRC : Fld := ⟨.crookId, 95, 64, .RO, 0x5C1E8A27⟩
def crookId_CALC_CRC : Fld := ⟨.crookId, 63, 32, .RO, 0⟩
def crookId_CHECK_STATE : Fld := ⟨.crookId, 31, 30, .RO, 0⟩
def crookId_CHECK : Fld := ⟨.crookId, 29, 29, .WO, 0⟩

def crookStatus_MC_COUNT : Fld := ⟨.crookStatus, 127, 96, .RCL, 0⟩
def crookStatus_RETRIED : Fld := ⟨.crookStatus, 95, 64, .RCL, 0⟩
def crookStatus_MC_ADDR : Fld := ⟨.crookStatus, 63, 51, .RO, 0⟩
def crookStatus_MC_NANO : Fld := ⟨.crookStatus, 50, 50, .RO, 0⟩
def crookStatus_NANO_ADDR : Fld := ⟨.crookStatus, 49, 39, .RO, 0⟩
def crookStatus_MC_OPCODE : Fld := ⟨.crookStatus, 38, 31, .RO, 0⟩
def crookStatus_ACTIVE : Fld := ⟨.crookStatus, 30, 26, .RO, 0⟩

def context_BUSY : Fld := ⟨.context, 63, 63, .RO, 0⟩
def context_UADDR : Fld := ⟨.context, 62, 50, .RO, 0⟩
def context_OPCODE : Fld := ⟨.context, 49, 34, .RO, 0⟩
def context_TAG : Fld := ⟨.context, 33, 18, .RO, 0⟩
def context_CHANNEL : Fld := ⟨.context, 17, 16, .RO, 0⟩

def microword_WORD : Fld := ⟨.microword, 23, 0, .RO, 0⟩

def nanoword_WORD : Fld := ⟨.nanoword, 143, 0, .RO, 0⟩

def perfSel_UNIT : Fld := ⟨.perfSel, 63, 56, .ST, 0⟩
def perfSel_EVENT : Fld := ⟨.perfSel, 55, 48, .ST, 0⟩
def perfSel_INST : Fld := ⟨.perfSel, 47, 31, .ST, 0⟩
def perfSel_LEVEL : Fld := ⟨.perfSel, 30, 30, .ST, 0⟩

def perfCnt_WRAPPED : Fld := ⟨.perfCnt, 48, 48, .W1C, 0⟩
def perfCnt_VALUE : Fld := ⟨.perfCnt, 47, 0, .RW, 0⟩

def flashCfg_EN : Fld := ⟨.flashCfg, 63, 63, .ST, 1⟩
def flashCfg_CLK : Fld := ⟨.flashCfg, 62, 61, .ST, 0⟩
def flashCfg_PATROL_H : Fld := ⟨.flashCfg, 60, 53, .ST, 0x18⟩

def flashStatus_STATE : Fld := ⟨.flashStatus, 127, 126, .RO, 0⟩
def flashStatus_BLOCKS : Fld := ⟨.flashStatus, 125, 111, .RO, 0⟩
def flashStatus_FACTORY_BAD : Fld := ⟨.flashStatus, 110, 96, .RO, 0⟩
def flashStatus_GROWN_BAD : Fld := ⟨.flashStatus, 95, 81, .RO, 0⟩
def flashStatus_LOG_BLOCKS : Fld := ⟨.flashStatus, 80, 74, .RO, 0⟩
def flashStatus_FREE_BLOCKS : Fld := ⟨.flashStatus, 73, 59, .RO, 0⟩
def flashStatus_MAX_ERASES : Fld := ⟨.flashStatus, 58, 35, .RO, 0⟩
def flashStatus_CRC_ERR : Fld := ⟨.flashStatus, 34, 19, .RCL, 0⟩
def flashStatus_UNCORR : Fld := ⟨.flashStatus, 18, 11, .RCL, 0⟩
def flashStatus_REFRESHES : Fld := ⟨.flashStatus, 10, 3, .RCL, 0⟩

def flashBlock_STATE : Fld := ⟨.flashBlock, 63, 62, .RO, 0⟩
def flashBlock_FACTORY_BAD : Fld := ⟨.flashBlock, 61, 61, .RO, 0⟩
def flashBlock_ERASES : Fld := ⟨.flashBlock, 55, 32, .RO, 0⟩
def flashBlock_BLOCK_SEQ : Fld := ⟨.flashBlock, 31, 0, .RO, 0⟩

def identStatus_SERIAL : Fld := ⟨.identStatus, 255, 128, .RO, 0⟩
def identStatus_DEVID : Fld := ⟨.identStatus, 127, 118, .RO, 0⟩
def identStatus_ROLE : Fld := ⟨.identStatus, 117, 116, .RO, 0⟩
def identStatus_STATE : Fld := ⟨.identStatus, 115, 114, .RO, 0⟩
def identStatus_SHEPHERD_ID : Fld := ⟨.identStatus, 113, 104, .RO, 0⟩
def identStatus_CTRL_OCTET : Fld := ⟨.identStatus, 103, 97, .RO, 0⟩
def identStatus_SECRET_SET : Fld := ⟨.identStatus, 96, 96, .RO, 0⟩
def identStatus_WRITES_LEFT : Fld := ⟨.identStatus, 95, 89, .RO, 0⟩
def identStatus_CAUSE : Fld := ⟨.identStatus, 88, 86, .RO, 0⟩

def identKey_KEY : Fld := ⟨.identKey, 391, 0, .RO, 0⟩

def roleCfg_MUSTER_ADDR : Fld := ⟨.roleCfg, 127, 64, .ST, 0⟩
def roleCfg_ROLE : Fld := ⟨.roleCfg, 63, 62, .ST, 0⟩
def roleCfg_RELAY_TIMEOUT : Fld := ⟨.roleCfg, 61, 42, .ST, 0x2710⟩
def roleCfg_RECHECK_S : Fld := ⟨.roleCfg, 41, 26, .ST, 0x3C⟩
def roleCfg_MUSTER_PAGES : Fld := ⟨.roleCfg, 25, 14, .ST, 0⟩

def manifest_VALID : Fld := ⟨.manifest, 383, 383, .ST, 0⟩
def manifest_SERIAL : Fld := ⟨.manifest, 255, 128, .ST, 0⟩
def manifest_KEY_FP : Fld := ⟨.manifest, 127, 0, .ST, 0⟩

def memberDev_STATE : Fld := ⟨.memberDev, 383, 381, .RO, 0⟩
def memberDev_CAUSE : Fld := ⟨.memberDev, 380, 378, .RO, 0⟩
def memberDev_JOINS : Fld := ⟨.memberDev, 377, 362, .RCL, 0⟩
def memberDev_BOOT_NONCE : Fld := ⟨.memberDev, 361, 298, .RO, 0⟩
def memberDev_OBS_SERIAL : Fld := ⟨.memberDev, 255, 128, .RO, 0⟩
def memberDev_OBS_FP : Fld := ⟨.memberDev, 127, 0, .RO, 0⟩

def route_VALID : Fld := ⟨.route, 63, 63, .RW, 0⟩
def route_OCTET : Fld := ⟨.route, 62, 56, .RW, 0⟩

def collect_STREAM : Fld := ⟨.collect, 63, 0, .WO, 0⟩

end F

/-- The fields of a class, highest bits first. -/
def Cls.fields : Cls → List Fld
  | .portCfg => [F.portCfg_SPEED, F.portCfg_NLANES, F.portCfg_FEC, F.portCfg_ENABLE, F.portCfg_CT_EN, F.portCfg_MAX_FRAME, F.portCfg_DEBOUNCE, F.portCfg_HOLD]
  | .portFc => [F.portFc_FC_MODE, F.portFc_PFC_TX_MASK, F.portFc_PFC_RX_MASK, F.portFc_PAUSE_TX, F.portFc_PAUSE_RX, F.portFc_QUANTA, F.portFc_REFRESH, F.portFc_TC_PRIO, F.portFc_SRC_MAC]
  | .portPreempt => [F.portPreempt_PREEMPT_EN, F.portPreempt_VERIFY_DIS, F.portPreempt_VERIFY_TIME, F.portPreempt_ADD_FRAG, F.portPreempt_PREEMPTABLE_TC]
  | .gateCfg => [F.gateCfg_GATE_EN, F.gateCfg_LIST_LEN, F.gateCfg_BASE_NS, F.gateCfg_BASE_SEC, F.gateCfg_CYCLE_TIME]
  | .gateEntry => [F.gateEntry_GATES, F.gateEntry_OP, F.gateEntry_INTERVAL]
  | .portStatus => [F.portStatus_STATE, F.portStatus_LINK, F.portStatus_LOCAL_FAULT, F.portStatus_REMOTE_FAULT, F.portStatus_HI_BER, F.portStatus_FEC_LOCK, F.portStatus_RX_PAUSED, F.portStatus_TX_XOFF, F.portStatus_VERIFY, F.portStatus_PREEMPT_ACTIVE, F.portStatus_GATE_PENDING, F.portStatus_LINK_DOWNS, F.portStatus_BOUNCES]
  | .portStats => [F.portStats_WRAPPED, F.portStats_VALUE]
  | .statsHalf => [F.statsHalf_HALF]
  | .pcsLane => [F.pcsLane_AM_LOCK, F.pcsLane_SKEW, F.pcsLane_BIP_ERR]
  | .octetCfg => [F.octetCfg_MODE]
  | .laneCfg => [F.laneCfg_RATE, F.laneCfg_TX_INV, F.laneCfg_RX_INV, F.laneCfg_PRECODE_TX, F.laneCfg_PRECODE_RX, F.laneCfg_LOOPBACK]
  | .laneTxeq => [F.laneTxeq_PRE3, F.laneTxeq_PRE2, F.laneTxeq_PRE1, F.laneTxeq_MAIN, F.laneTxeq_POST1, F.laneTxeq_TRAIN_EN]
  | .laneRxeq => [F.laneRxeq_ADAPT, F.laneRxeq_CTLE, F.laneRxeq_SNR, F.laneRxeq_EYE_MV]
  | .prbsCtrl => [F.prbsCtrl_TX_PATTERN, F.prbsCtrl_RX_PATTERN, F.prbsCtrl_CLEAR]
  | .prbsCount => [F.prbsCount_BIT_COUNT, F.prbsCount_ERR_COUNT, F.prbsCount_LOCK, F.prbsCount_BIT_SAT, F.prbsCount_ERR_SAT]
  | .lanePower => [F.lanePower_REQ, F.lanePower_STATE, F.lanePower_MOVING, F.lanePower_CAL_FAIL]
  | .laneStatus => [F.laneStatus_SIG_DET, F.laneStatus_CDR_LOCK, F.laneStatus_AM_LOCK, F.laneStatus_STUFF_OVR_S, F.laneStatus_STUFF_VIOL_S, F.laneStatus_DESKEW_FAIL, F.laneStatus_SKEW, F.laneStatus_STUFF_OVR, F.laneStatus_STUFF_VIOL, F.laneStatus_HDR_ERR]
  | .droveCfg => [F.droveCfg_PEN_MASK]
  | .droveStatus => [F.droveStatus_ACTIVE, F.droveStatus_NACTIVE]
  | .probePoint => [F.probePoint_SRC, F.probePoint_OFFSET]
  | .selCtrl => [F.selCtrl_VALID, F.selCtrl_SHAPE]
  | .selKey => [F.selKey_KEY]
  | .selMask => [F.selMask_MASK]
  | .shapeCtrl => [F.shapeCtrl_VALID, F.shapeCtrl_DEPTH, F.shapeCtrl_NFIELDS, F.shapeCtrl_NLAYERS, F.shapeCtrl_MAL_ACTION, F.shapeCtrl_LM_ACTION, F.shapeCtrl_PRED_CHECK, F.shapeCtrl_PRED_DEFAULT]
  | .shapeField => [F.shapeField_OFFSET, F.shapeField_START, F.shapeField_WIDTH]
  | .shapeLayer => [F.shapeLayer_OFFSET, F.shapeLayer_KIND, F.shapeLayer_INNER]
  | .shapeLchk => [F.shapeLchk_MODE, F.shapeLchk_BASE, F.shapeLchk_FOFF, F.shapeLchk_FWIDTH, F.shapeLchk_SCALE, F.shapeLchk_ADD, F.shapeLchk_REF, F.shapeLchk_CONST]
  | .shapeCchk => [F.shapeCchk_MODE, F.shapeCchk_OFFSET, F.shapeCchk_LEN, F.shapeCchk_REF]
  | .raceCfg => [F.raceCfg_RACE_TIMEOUT]
  | .racePort => [F.racePort_HEAD_SEQ, F.racePort_NEXT_SEQ, F.racePort_TIMEOUTS, F.racePort_LATE, F.racePort_WIN_STALLS]
  | .paceStatus => [F.paceStatus_PEN_PACE, F.paceStatus_BANK_PACE, F.paceStatus_VCORE_REQ, F.paceStatus_VCORE_ACK, F.paceStatus_PACE_LOW, F.paceStatus_AT_LIMIT, F.paceStatus_STATE]
  | .paceEvents => [F.paceEvents_LOW_EPISODES, F.paceEvents_AVS_FAIL_S, F.paceEvents_LIMIT_S, F.paceEvents_PACE_LOW_S]
  | .paceControl => [F.paceControl_VCORE_MAX, F.paceControl_VCORE_MIN, F.paceControl_VCORE_FIXED, F.paceControl_MARGIN, F.paceControl_AVS_ENABLE]
  | .emTable => [F.emTable_SEED, F.emTable_VALID, F.emTable_WIDE, F.emTable_KIND, F.emTable_MISS_DROP, F.emTable_MISS_ADD_FID, F.emTable_MISS_RESULT, F.emTable_STRAY_EN]
  | .emKeyseg => [F.emKeyseg_SRC, F.emKeyseg_LSB, F.emKeyseg_WIDTH]
  | .emSlot => [F.emSlot_VALID, F.emSlot_WIDE, F.emSlot_KIND, F.emSlot_TABLE, F.emSlot_OPEN, F.emSlot_SETTLED, F.emSlot_BORN, F.emSlot_RETIRED, F.emSlot_RESULT, F.emSlot_KEY]
  | .emOvf => [F.emOvf_USED, F.emOvf_HOME, F.emOvf_ENTRY]
  | .hitWord => [F.hitWord_HITS]
  | .emStatus => [F.emStatus_SLOTS_USED, F.emStatus_OVF_USED, F.emStatus_PROMOTE_PENDING, F.emStatus_MOVES, F.emStatus_INSERT_FAIL]
  | .learnCfg => [F.learnCfg_DEST, F.learnCfg_RING]
  | .learnStatus => [F.learnStatus_NOTICES, F.learnStatus_SUPPRESSED, F.learnStatus_MOVES, F.learnStatus_LOST, F.learnStatus_UNFILTERED, F.learnStatus_FILTER_USED]
  | .bankStatus => [F.bankStatus_QUEUE_FULL]
  | .lpmTable => [F.lpmTable_ENABLE, F.lpmTable_PROFILE, F.lpmTable_NEXT_ROOT, F.lpmTable_ROOT3, F.lpmTable_ROOT2, F.lpmTable_ROOT1, F.lpmTable_ROOT0]
  | .lpmWord => [F.lpmWord_SLOTS]
  | .lpmStatus => [F.lpmStatus_BAD_PTR, F.lpmStatus_LOOKUPS_K]
  | .rulesCfg => [F.rulesCfg_LONG_EN, F.rulesCfg_LONG_SLICE]
  | .sliceSeg => [F.sliceSeg_SRC, F.sliceSeg_LSB, F.sliceSeg_WIDTH]
  | .ruleKey => [F.ruleKey_KEY]
  | .ruleMask => [F.ruleMask_MASK]
  | .ruleCtrl => [F.ruleCtrl_VALID, F.ruleCtrl_OPEN, F.ruleCtrl_SETTLED, F.ruleCtrl_BORN, F.ruleCtrl_RETIRED, F.ruleCtrl_RESULT]
  | .lookupPlan => [F.lookupPlan_VALID, F.lookupPlan_FWD, F.lookupPlan_CLS_EN, F.lookupPlan_CLS_SLICE, F.lookupPlan_ACL_SLICES, F.lookupPlan_DST_TABLE, F.lookupPlan_SRC_EN, F.lookupPlan_SRC_TABLE, F.lookupPlan_FAMILY, F.lookupPlan_ADDR_SLOT, F.lookupPlan_TALLY0_EN, F.lookupPlan_TALLY0_TABLE, F.lookupPlan_TALLY1_EN, F.lookupPlan_TALLY1_TABLE]
  | .action => [F.action_STATE, F.action_RETIRED, F.action_FWD, F.action_DROP, F.action_TRAP, F.action_COPY_HOST, F.action_RECIRC, F.action_SET_CTX, F.action_FID, F.action_VRF, F.action_TC_EN, F.action_TC, F.action_POL_EN, F.action_POLICER, F.action_CNT_EN, F.action_COUNTER, F.action_MIR_EN, F.action_MIRROR, F.action_TPL_EN, F.action_TEMPLATE]
  | .nextHop => [F.nextHop_STATE, F.nextHop_RETIRED, F.nextHop_EGRESS, F.nextHop_TPL_EN, F.nextHop_TEMPLATE, F.nextHop_DEC_TTL, F.nextHop_DMAC, F.nextHop_SET_DMAC]
  | .group => [F.group_STATE, F.group_RETIRED, F.group_BASE, F.group_SIZE, F.group_LAG]
  | .member => [F.member_REF]
  | .tplCtrl => [F.tplCtrl_STATE, F.tplCtrl_RETIRED, F.tplCtrl_DECAP, F.tplCtrl_ENCAP, F.tplCtrl_POP_VLAN, F.tplCtrl_PUSH_VLAN, F.tplCtrl_POP_MPLS, F.tplCtrl_PUSH_MPLS, F.tplCtrl_COPY_TTL, F.tplCtrl_SET_SMAC, F.tplCtrl_SMAC, F.tplCtrl_INS_LEN, F.tplCtrl_IP_OFF, F.tplCtrl_UDP_OFF, F.tplCtrl_OUTER_V6, F.tplCtrl_ENTROPY]
  | .tplData => [F.tplData_DATA]
  | .mirror => [F.mirror_VALID, F.mirror_EGRESS, F.mirror_DEST, F.mirror_TRUNC, F.mirror_TC, F.mirror_SAMPLE]
  | .portAct => [F.portAct_LAG_EN, F.portAct_LAG_GROUP, F.portAct_STP_BLOCK]
  | .hashPlan => [F.hashPlan_FIELDS, F.hashPlan_PORT]
  | .actCfg => [F.actCfg_HASH_SEED]
  | .actStatus => [F.actStatus_BAD_REF, F.actStatus_EDIT_FAIL, F.actStatus_RECIRC_LIMIT, F.actStatus_MIRROR_CAPPED]
  | .versionCfg => [F.versionCfg_COMMIT_TIMEOUT, F.versionCfg_DRAIN_LIMIT]
  | .versionStatus => [F.versionStatus_STAGED_VER, F.versionStatus_OLDEST_VER, F.versionStatus_CURRENT, F.versionStatus_OCCUPIED, F.versionStatus_COMMIT_WAIT, F.versionStatus_COMMITS, F.versionStatus_BUSY, F.versionStatus_EXPIRED]
  | .slot => [F.slot_STATE, F.slot_VER, F.slot_HOLDERS, F.slot_AGE_US]
  | .foldCfg => [F.foldCfg_CHAIN_RESERVE, F.foldCfg_PUSH_EN]
  | .carve => [F.carve_POOL, F.carve_LIVE_POOL, F.carve_DRAINING, F.carve_CELLS_USED]
  | .poolStatus => [F.poolStatus_BLOCKS, F.poolStatus_DRAIN_BLOCKS, F.poolStatus_CELLS_FREE, F.poolStatus_SPILLS, F.poolStatus_POOL_EMPTY]
  | .prioMap => [F.prioMap_PCP_MAP, F.prioMap_DEFAULT_PRIO]
  | .reqQuota => [F.reqQuota_LIMIT, F.reqQuota_RESERVE, F.reqQuota_HEADROOM, F.reqQuota_XOFF_WM, F.reqQuota_XON_WM, F.reqQuota_ALPHA, F.reqQuota_LOSSLESS]
  | .reqStatus => [F.reqStatus_USED, F.reqStatus_HDRM_USED, F.reqStatus_XOFF, F.reqStatus_OVER_QUOTA, F.reqStatus_DROPS, F.reqStatus_OVER_EV, F.reqStatus_LOSSLESS_DROPS]
  | .queueAdm => [F.queueAdm_PUSH_RANK, F.queueAdm_Q_BU, F.queueAdm_Q_FRAMES]
  | .foldStatus => [F.foldStatus_SHARED_BU, F.foldStatus_SHARED_FREE, F.foldStatus_UNIFORM, F.foldStatus_RECOVERING, F.foldStatus_LEN_SHORT, F.foldStatus_LEN_MISMATCH, F.foldStatus_CHAIN_FAIL, F.foldStatus_PUSHOUTS]
  | .portSched => [F.portSched_V_CLASS, F.portSched_HIST_MODE, F.portSched_HIST_BASE, F.portSched_PAUSED_TC]
  | .classCfg => [F.classCfg_STRICT, F.classCfg_C_WEIGHT, F.classCfg_FIRST_Q, F.classCfg_NQ, F.classCfg_V_QUEUE, F.classCfg_C_FINISH, F.classCfg_BACKLOG]
  | .queueCfg => [F.queueCfg_WEIGHT, F.queueCfg_FINISH, F.queueCfg_BACKLOG, F.queueCfg_MOVING, F.queueCfg_CUR_TC]
  | .shaper => [F.shaper_EN, F.shaper_RATE, F.shaper_BURST, F.shaper_CREDIT, F.shaper_WAITING, F.shaper_SLOT]
  | .policer => [F.policer_MODE, F.policer_AWARE, F.policer_RED_DROP, F.policer_NG_TC_EN, F.policer_NG_TC, F.policer_CIR, F.policer_PIR, F.policer_CBS, F.policer_EBS]
  | .polState => [F.polState_BKT_C, F.polState_BKT_E, F.polState_LAST_COLOUR, F.polState_RED_FRAMES]
  | .queueStats => [F.queueStats_DEPTH_MIN, F.queueStats_DEPTH_MAX, F.queueStats_DEPTH_LAST, F.queueStats_DELAY_MIN, F.queueStats_DELAY_MAX, F.queueStats_DELAY_LAST, F.queueStats_DEPTH_SAMPLED, F.queueStats_DELAY_SAMPLED]
  | .queueHist => [F.queueHist_BIN15, F.queueHist_BIN14, F.queueHist_BIN13, F.queueHist_BIN12, F.queueHist_BIN11, F.queueHist_BIN10, F.queueHist_BIN9, F.queueHist_BIN8, F.queueHist_BIN7, F.queueHist_BIN6, F.queueHist_BIN5, F.queueHist_BIN4, F.queueHist_BIN3, F.queueHist_BIN2, F.queueHist_BIN1, F.queueHist_BIN0]
  | .telemCfg => [F.telemCfg_EXP_DEST, F.telemCfg_DROP_MASK, F.telemCfg_SENT_SAMPLE, F.telemCfg_EXP_RATE, F.telemCfg_EXP_BURST, F.telemCfg_EXP_MAXREC, F.telemCfg_EXP_HDR_LEN, F.telemCfg_EXP_FLUSH, F.telemCfg_EXP_QUEUE, F.telemCfg_EXP_IP_OFF, F.telemCfg_EXP_UDP_OFF, F.telemCfg_EXP_IP_V6]
  | .expHeader => [F.expHeader_BYTES]
  | .telemStatus => [F.telemStatus_NEXT_EXP_SEQ, F.telemStatus_SENT_NOT_EXPORTED, F.telemStatus_EXP_FRAMES, F.telemStatus_EXP_FRAMES_LOST, F.telemStatus_FIFO_PEAK]
  | .dropReason => [F.dropReason_DROPS, F.dropReason_NOT_EXPORTED]
  | .dropPort => [F.dropPort_WRAPPED, F.dropPort_VALUE]
  | .tallyMiss => [F.tallyMiss_MISS_FRAMES, F.tallyMiss_MISS_BYTES, F.tallyMiss_RECL_FRAMES, F.tallyMiss_RECL_BYTES]
  | .hopCfg => [F.hopCfg_HOP_EN, F.hopCfg_DOMAIN]
  | .counter => [F.counter_PACKETS, F.counter_BYTES]
  | .musterCfg => [F.musterCfg_EN, F.musterCfg_DEST, F.musterCfg_INTERVAL, F.musterCfg_NLIST, F.musterCfg_NBUF]
  | .musterList => [F.musterList_UNIT, F.musterList_CLASS, F.musterList_FIRST, F.musterList_COUNT]
  | .musterStatus => [F.musterStatus_RELEASE_SEQ, F.musterStatus_SKIPPED]
  | .timeCfg => [F.timeCfg_TREF_SEL, F.timeCfg_SRC, F.timeCfg_KP, F.timeCfg_KI, F.timeCfg_FREQ_LIMIT, F.timeCfg_STEP_THRESH, F.timeCfg_SAMPLE_TIMEOUT]
  | .tod => [F.tod_SEC, F.tod_NS, F.tod_FRAC, F.tod_FRC, F.tod_FRC_FRAC]
  | .todSet => [F.todSet_OP, F.todSet_SEC, F.todSet_NS, F.todSet_FRAC, F.todSet_STEP]
  | .servoIn => [F.servoIn_OFFSET]
  | .timeStatus => [F.timeStatus_FREQ_ADJ, F.timeStatus_INTEG, F.timeStatus_LAST_OFFSET, F.timeStatus_STATE, F.timeStatus_TREF_LOCK, F.timeStatus_TREF_LOST_S, F.timeStatus_SAMPLES, F.timeStatus_STEPS, F.timeStatus_TS_SKIPPED, F.timeStatus_CAPTURE_LOST]
  | .portTs => [F.portTs_TC_MODE, F.portTs_RX_ADJ, F.portTs_TX_ADJ, F.portTs_LINK_DELAY]
  | .tsFifo => [F.tsFifo_VALID, F.tsFifo_OUTCOME, F.tsFifo_PORT, F.tsFifo_TAG, F.tsFifo_SEC, F.tsFifo_NS, F.tsFifo_FRAC]
  | .tout => [F.tout_EN, F.tout_POL, F.tout_MISSED, F.tout_START_SEC, F.tout_START_NS, F.tout_PERIOD, F.tout_WIDTH, F.tout_EDGES]
  | .pps => [F.pps_EN, F.pps_EDGE, F.pps_DELAY, F.pps_CAP_SEC, F.pps_CAP_NS, F.pps_CAP_FRAC, F.pps_COUNT, F.pps_GLITCH]
  | .flockTime => [F.flockTime_UPSTREAM, F.flockTime_SYNC_INTERVAL, F.flockTime_ASYM, F.flockTime_MEAN_DELAY, F.flockTime_HOPS, F.flockTime_IGNORED]
  | .flockCfg => [F.flockCfg_SF_SRC, F.flockCfg_SF_OCTET, F.flockCfg_DEVICES, F.flockCfg_SF_HOLDOVER]
  | .linkCfg => [F.linkCfg_EN, F.linkCfg_SWITCH]
  | .conn => [F.conn_TX_TYPE, F.conn_XC_OCTET, F.conn_XC_SLOT, F.conn_RX_TYPE]
  | .linkStatus => [F.linkStatus_IN_FRAME, F.linkStatus_LOS, F.linkStatus_LOF, F.linkStatus_LOM, F.linkStatus_AIS, F.linkStatus_RDI, F.linkStatus_LOS_S, F.linkStatus_LOF_S, F.linkStatus_LOM_S, F.linkStatus_AIS_S, F.linkStatus_RDI_S, F.linkStatus_TX_PAGE, F.linkStatus_RX_PAGE, F.linkStatus_SWITCH_PENDING, F.linkStatus_PEER_VALID, F.linkStatus_PEER_DEVID, F.linkStatus_PEER_OCTET, F.linkStatus_RX_MFC]
  | .linkCount => [F.linkCount_BIP_ERR, F.linkCount_JUST_POS, F.linkCount_JUST_NEG, F.linkCount_SLIPS, F.linkCount_BLK_ERR, F.linkCount_FAW_ERR, F.linkCount_HUNTS]
  | .slotAis => [F.slotAis_AIS]
  | .hostStatus => [F.hostStatus_LINK_GEN, F.hostStatus_LINK_WIDTH, F.hostStatus_DMA_ERR_S, F.hostStatus_RING_DROPS, F.hostStatus_ABORTS, F.hostStatus_TX_BAD]
  | .rxRing => [F.rxRing_BASE, F.rxRing_EN, F.rxRing_QUIESCED, F.rxRing_TYPE, F.rxRing_LOG2, F.rxRing_BUF_UNITS, F.rxRing_HOLD, F.rxRing_HEAD, F.rxRing_TAIL]
  | .txRing => [F.txRing_BASE, F.txRing_EN, F.txRing_QUIESCED, F.txRing_LOG2, F.txRing_HEAD, F.txRing_TAIL]
  | .queueMap => [F.queueMap_BASE_RING, F.queueMap_NRINGS]
  | .vector => [F.vector_HOLDOFF, F.vector_COUNT, F.vector_PENDING]
  | .musterBuf => [F.musterBuf_ADDR, F.musterBuf_PAGES]
  | .faultCfg => [F.faultCfg_INJ_FULL]
  | .srcCfg => [F.srcCfg_ACTION, F.srcCfg_TRANSIENT_OK, F.srcCfg_NOTIFY, F.srcCfg_WINDOW]
  | .srcStatus => [F.srcStatus_LIVE, F.srcStatus_STICKY, F.srcStatus_PENDING, F.srcStatus_ESCALATED, F.srcStatus_INJ_SEEN, F.srcStatus_REAL_INJ, F.srcStatus_LAST_INST, F.srcStatus_TIMER_LEFT, F.srcStatus_COUNT, F.srcStatus_LAST_SYNDROME, F.srcStatus_NPEND]
  | .chkStatus => [F.chkStatus_CE, F.chkStatus_UE, F.chkStatus_SYNDROME, F.chkStatus_ADDR]
  | .inject => [F.inject_CHECKER, F.inject_LEFT, F.inject_ARMED]
  | .faultSummary => [F.faultSummary_LIVE, F.faultSummary_STICKY]
  | .fatalInfo => [F.fatalInfo_FATAL, F.fatalInfo_SOURCE, F.fatalInfo_INST]
  | .recCfg => [F.recCfg_COLLAPSE_MS, F.recCfg_NOTIFY_EACH]
  | .recStatus => [F.recStatus_LOG_ID, F.recStatus_FIRST_SEQ, F.recStatus_LAST_SEQ, F.recStatus_FULL, F.recStatus_FLUSHED, F.recStatus_SOURCE, F.recStatus_LOST_EVENTS]
  | .recEntry => [F.recEntry_RECORD]
  | .cmdCfg => [F.cmdCfg_CMD_MAC, F.cmdCfg_INB_EN, F.cmdCfg_SB_EN, F.cmdCfg_REPLY_TC]
  | .cmdStatus => [F.cmdStatus_ACCEPTED, F.cmdStatus_AUTH_FAIL, F.cmdStatus_REPLAY, F.cmdStatus_MALFORMED, F.cmdStatus_TOKENS_NEW, F.cmdStatus_INFLIGHT, F.cmdStatus_SB_STATE, F.cmdStatus_SB_MONITOR, F.cmdStatus_REPLY_LOST]
  | .crookId => [F.crookId_ROM_ID, F.crookId_ROM_CRC, F.crookId_CALC_CRC, F.crookId_CHECK_STATE, F.crookId_CHECK]
  | .crookStatus => [F.crookStatus_MC_COUNT, F.crookStatus_RETRIED, F.crookStatus_MC_ADDR, F.crookStatus_MC_NANO, F.crookStatus_NANO_ADDR, F.crookStatus_MC_OPCODE, F.crookStatus_ACTIVE]
  | .context => [F.context_BUSY, F.context_UADDR, F.context_OPCODE, F.context_TAG, F.context_CHANNEL]
  | .microword => [F.microword_WORD]
  | .nanoword => [F.nanoword_WORD]
  | .perfSel => [F.perfSel_UNIT, F.perfSel_EVENT, F.perfSel_INST, F.perfSel_LEVEL]
  | .perfCnt => [F.perfCnt_WRAPPED, F.perfCnt_VALUE]
  | .flashCfg => [F.flashCfg_EN, F.flashCfg_CLK, F.flashCfg_PATROL_H]
  | .flashStatus => [F.flashStatus_STATE, F.flashStatus_BLOCKS, F.flashStatus_FACTORY_BAD, F.flashStatus_GROWN_BAD, F.flashStatus_LOG_BLOCKS, F.flashStatus_FREE_BLOCKS, F.flashStatus_MAX_ERASES, F.flashStatus_CRC_ERR, F.flashStatus_UNCORR, F.flashStatus_REFRESHES]
  | .flashBlock => [F.flashBlock_STATE, F.flashBlock_FACTORY_BAD, F.flashBlock_ERASES, F.flashBlock_BLOCK_SEQ]
  | .identStatus => [F.identStatus_SERIAL, F.identStatus_DEVID, F.identStatus_ROLE, F.identStatus_STATE, F.identStatus_SHEPHERD_ID, F.identStatus_CTRL_OCTET, F.identStatus_SECRET_SET, F.identStatus_WRITES_LEFT, F.identStatus_CAUSE]
  | .identKey => [F.identKey_KEY]
  | .roleCfg => [F.roleCfg_MUSTER_ADDR, F.roleCfg_ROLE, F.roleCfg_RELAY_TIMEOUT, F.roleCfg_RECHECK_S, F.roleCfg_MUSTER_PAGES]
  | .manifest => [F.manifest_VALID, F.manifest_SERIAL, F.manifest_KEY_FP]
  | .memberDev => [F.memberDev_STATE, F.memberDev_CAUSE, F.memberDev_JOINS, F.memberDev_BOOT_NONCE, F.memberDev_OBS_SERIAL, F.memberDev_OBS_FP]
  | .route => [F.route_VALID, F.route_OCTET]
  | .collect => [F.collect_STREAM]

end Sys2Proof
end

