-- ==== Sys2Proof/Machine/Resets.lean ====
section
/-! DEFINITION. Machine/Resets.lean: the name of every object and the value it has when RESET_N deasserts (R5, R7). -/

namespace Sys2Proof.Machine

open Sys2Proof

/-- The 48-bit object identifier of index i of a class: UNIT[47:40], CLASS[39:32], INDEX[31:0] (R5). -/
def oid (c : Cls) (i : Nat) : Nat := c.row.unit * 2 ^ 40 + c.row.code * 2 ^ 32 + i

/-- The reset values of a class's fields, each at its place. -/
def fieldResets (c : Cls) : ObjVal :=
  c.fields.foldl (fun v f => v ||| (BitVec.ofNat 512 f.rst <<< f.lo)) 0

/-- The default ACTION of a fault source (Table FA-4): 11 for class C, 10 for class F. -/
def srcDefaultAction (src : Nat) : Nat :=
  match src with
  | 0x02 | 0x07 => 0
  | 0x03 | 0x04 | 0x05 | 0x11 => 1
  | 0x06 | 0x12 | 0x13 | 0x14 => 2
  | _ => 3

/-- Whether a source is a level source (Table FA-4). -/
def srcLevel (src : Nat) : Bool := [0x08, 0x09, 0x0C, 0x0D, 0x0E, 0x13].contains src

/-- Whether a source code is one of Table FA-4. DEDUCED, log entry 60. -/
def srcDefined (src : Nat) : Bool := 1 ≤ src && src ≤ 0x14

/-- The reset value of an object. Where a reset value depends on the index, the chapter's table gives it: PROBE_POINT
OFFSET, SHAPE_CTRL and SLOT of index 0, POOL_STATUS of pool B (R178), CLASS_CFG FIRST_Q, SRC_CFG, RX_RING 256; ROLE_CFG has
the ROLE that a low CFG_ROLE gives (Table FM-3). -/
def resetVal (c : Cls) (i : Nat) : ObjVal :=
  let v := fieldResets c
  let at_ (f : Fld) (x : Nat) : ObjVal := v ||| (BitVec.ofNat 512 x <<< f.lo)
  match c with
  | .probePoint => at_ F.probePoint_OFFSET (2 * i)
  | .shapeCtrl => if i = 0 then at_ F.shapeCtrl_VALID 1 else v
  | .slot => if i = 0 then at_ F.slot_STATE 1 else v
  | .poolStatus =>
    if i = 1 then
      at_ F.poolStatus_BLOCKS 0x100 ||| (BitVec.ofNat 512 0x80000 <<< F.poolStatus_CELLS_FREE.lo)
    else v
  | .classCfg => at_ F.classCfg_FIRST_Q (8 * (i % 8))
  | .srcCfg =>
    if srcDefined i then
      at_ F.srcCfg_ACTION (srcDefaultAction i) |||
        (BitVec.ofNat 512 (if srcLevel i then 1 else 0) <<< F.srcCfg_TRANSIENT_OK.lo)
    else 0
  | .roleCfg => at_ F.roleCfg_ROLE 1
  | .rxRing => if i = 256 then at_ F.rxRing_TYPE 2 else v
  | _ => v

end Sys2Proof.Machine
end

