-- ==== Sys2Proof/Machine/State.lean ====
section
/-! DEFINITION. Machine/State.lean: the state of the GD2048 as plain data, its state after reset, and the reasons for
which a step can stop. -/

namespace Sys2Proof.Machine

open Sys2Proof

/-! ## The whole device (chapters 1, 18, 19) -/

/-- Straps, fuses, start-up and the low-speed balls. -/
structure SysSt where
  /-- RESET_N is asserted (R365). -/
  inReset : Bool
  /-- PERST_N is asserted (R366). -/
  perst : Bool
  /-- Latched CFG_ROLE (R364). -/
  role : Bool
  /-- Latched CFG_DEVID (R364). -/
  devid : Nat
  /-- PHASE of START_STATUS (Table SU-1): 1 FUSES, 2 CROOK, 3 TEST, 4 READY, 5 FATAL. -/
  phase : Nat
  /-- The fuses are loaded, and the crook has started (Table SU-2 steps 1 and 2). -/
  fuses : Bool
  crookOn : Bool
  romOk : Bool
  testDone : Bool
  testFail : Bool
  calDone : Bool
  logReady : Bool
  byCommand : Bool
  /-- The first ROM check is complete (Table SU-2 step 7). -/
  romDone : Bool
  /-- ELAPSED_US, once frozen. -/
  elapsed : Option Nat
  /-- Level of the BELLWETHER ball (R330). -/
  bellwether : Bool
  /-- FRC of the last toggle of BELLWETHER, or of ready. -/
  bellSince : Nat
  /-- FAULT_N is asserted (R330). -/
  faultN : Bool
  /-- A DEVICE_RESET has replied and its reset has not begun (R376). -/
  resetDue : Bool
  /-- How many BOOT_NONCEs have been drawn. -/
  boots : Nat
  deriving DecidableEq, Repr

/-! ## Time (chapter 10) -/

/-- A pulse output (R243): its next leading edge on the ToD in ns, the pulse that runs (its end on the FRC and its
polarity), and whether a one-shot output has pulsed. -/
structure ToutSt where
  next : Option Nat
  pulse : Option (Nat × Bool)
  fired : Bool
  deriving DecidableEq, Repr

/-- The time channel of one flock link (R247): the transmit stamps of the last 16 records sent (SEQ and stamp, the newest
first), the next SEQ, and the last record received (its SEQ and receive stamp). Stamps are in 2^-16 ns. -/
structure TimeLink where
  sent : List (Nat × Nat)
  nextSeq : Nat
  last : Option (Nat × Nat)
  deriving DecidableEq, Repr

/-- An entry of TS_FIFO (Table TI-7); its stamp is in 2^-16 ns. -/
structure TsEntry where
  outcome : Nat
  port : Nat
  tag : Nat
  stamp : Nat
  deriving DecidableEq, Repr

/-- The counts of R233 and the servo of R236. -/
structure TimeSt where
  /-- The free-running count in ns. -/
  frc : Nat
  /-- The ToD in units of 2^-24 ns / 10^9, modulo 2^48 seconds: all the fractional bits the counts need (R233). -/
  tod : Nat
  /-- FREQ_ADJ, exact, in units of 2^-24 ppb. -/
  adj : Int
  /-- INTEG, exact, in units of 2^-24 ppb. -/
  integ : Int
  /-- FRC of the last servo sample (SAMPLE_TIMEOUT of R236). -/
  lastSample : Nat
  /-- TREF_LOCK has been lost with TREF, not by a change of TREF_SEL (R234). -/
  trefLost : Bool
  /-- FRC of the last edge captured (R245). -/
  lastPps : Option Nat
  touts : List (Nat × ToutSt)
  fifo : List TsEntry
  links : List (Nat × TimeLink)
  /-- FRC at the last time records (R247). -/
  lastRecord : Option Nat
  deriving DecidableEq, Repr

/-! ## Event recorder and flash (chapter 16) -/

/-- A record (Table ER-2). -/
structure Rec where
  seq : Nat
  code : Nat
  inj : Bool
  realInj : Bool
  isOpen : Bool
  restored : Bool
  cls : Nat
  rep : Nat
  tsSec : Nat
  devid : Nat
  tsNs : Nat
  info0 : Nat
  info1 : Nat
  crc : BitVec 32
  deriving DecidableEq, Repr

/-- A record of the on-chip store: the FRC of its writing, its open time in ms, the REPEAT of its last program in flash
(none: never programmed), the REPEAT that the program in progress carries, and whether it waits for a program (R334, R341). -/
structure LogEntry where
  r : Rec
  since : Nat
  openMs : Nat
  prog : Option Nat
  flying : Option Nat
  waiting : Bool
  deriving DecidableEq, Repr

/-- The recorder. recs is the store in SEQ order; held are the records before ready (R390). -/
structure RecSt where
  recs : List LogEntry
  held : List LogEntry
  holding : Bool
  logId : Nat
  firstSeq : Nat
  lastSeq : Nat
  full : Bool
  source : Nat
  /-- The on-chip store holds a log that its supplies have kept (R342, R347). -/
  kept : Bool
  /-- The held RECORDER_CLEAR commands that wait for a program, then for their EV_LOG_CLEAR in flash (R338). -/
  clears : List Nat
  /-- The clear of the first of them has been made, and its EV_LOG_CLEAR is not yet in flash. -/
  cleared : Bool
  /-- EV_FATAL of a fatal fault declared before the log was available (R390). -/
  fatal : Option LogEntry
  deriving DecidableEq, Repr

/-- A programmed page of flash: whether it reads, and its main bytes from byte 0 on; those after them read 0xFF (R340). -/
structure FPage where
  readable : Bool
  main : List Byte
  deriving DecidableEq, Repr

/-- A block of flash. What the recorder knows of it (Table ER-8): STATE 0 FREE, 1 LOG, 2 OBSOLETE, 3 BAD, whether it is bad
from the factory, its erase count, BLOCK_SEQ, log, and mark for refresh. What it holds (R340): spare byte 0 of page 0, the
main bytes of page 0 (those after them read 0xFF), and pages 1 on. -/
structure FBlock where
  state : Nat
  factoryBad : Bool
  erases : Nat
  blockSeq : Nat
  logId : Nat
  refresh : Bool
  spare : Byte
  head : List Byte
  pages : List FPage
  deriving DecidableEq, Repr

/-- The flash device on the port and what the recorder knows of it. -/
structure FlashSt where
  /-- A device answers the read ID. -/
  present : Bool
  /-- Blocks of the device. -/
  nblocks : Nat
  /-- Bytes of a main page. -/
  pageBytes : Nat
  /-- Block contents, by block number; an unlisted block is FREE with freeErases erases. -/
  blocks : List (Nat × FBlock)
  /-- ERASES of a FREE block (R342). -/
  freeErases : Nat
  /-- STATE of FLASH_STATUS (Table ER-8): 0 ABSENT, 1 READY, 2 RESTORING, 3 FAILED. -/
  state : Nat
  /-- The program in progress: its block and the records it carries. -/
  prog : Option (Nat × List Rec)
  nextBlockSeq : Nat
  /-- FRC of the last patrol since reset (R345). -/
  lastPatrol : Option Nat
  deriving DecidableEq, Repr

/-! ## Faults (chapter 15) -/

/-- An escalation that has been taken and whose ISOLATE (0) or RESET (1) has not yet acted on its instances (R323, R325). -/
structure Due where
  src : Nat
  action : Nat
  insts : List Nat
  deriving DecidableEq, Repr

/-- The fault unit: the level conditions that hold (source, instance), the escalation windows that run (source, FRC of
expiry), their pending instances, the escalations whose action is due, the isolated instances, and the stored words whose
check bits do not fit (word reference, syndrome). -/
structure FaultSt where
  levels : List (Nat × Nat)
  timers : List (Nat × Nat)
  insts : List (Nat × List Nat)
  due : List Due
  isolated : List Nat
  upset : List (Nat × Nat)
  fatal : Bool
  deriving DecidableEq, Repr

/-! ## Pace monitor and AVS (chapters 1, 19) -/

structure PaceSt where
  highCount : Nat
  /-- The loop asked for more at its last sample (AT_LIMIT of Table AR-2). -/
  asks : Bool
  /-- FRC of the last sample. -/
  lastSample : Option Nat
  /-- FRC of the request that no response has acknowledged yet. -/
  unacked : Option Nat
  /-- FRC of the last resend in HOLD, and of the last read request. -/
  lastResend : Nat
  lastRead : Nat
  deriving DecidableEq, Repr

/-! ## Lanes (chapter 2) -/

/-- What a lane holds beside its objects. -/
structure LaneSt where
  /-- The state a transition moves to, with the FRC of its start and whether it is an L2 exit (R54 to R56). -/
  move : Option (Nat × Nat × Bool)
  /-- The transmit and receive lags of R46, and whether the transmitter replaces blocks (R47). -/
  lagTx : Nat
  lagRx : Nat
  ovr : Bool
  /-- The lane has reached AM lock since it last left L2 (R46). -/
  amSeen : Bool
  /-- Consecutive good and bad markers, and the last marker's AM_SEQ and arrival in ns (R49). -/
  good : Nat
  bad : Nat
  mark : Option (Nat × Nat)
  /-- FRC from which locked PRBS bits count (R51). -/
  prbsSince : Nat
  deriving DecidableEq, Repr

/-! ## Ports (chapter 3) -/

/-- A gate control list (R76): base time in ns of ToD, cycle in ns, entries (gates, OP, interval). -/
structure GateList where
  en : Bool
  base : Nat
  cycle : Nat
  entries : List (Nat × Nat × Nat)
  deriving DecidableEq, Repr

/-- What a front port holds beside its objects. -/
structure PortSt where
  /-- FRC at which STATE was entered; in HOLD, from which the hold counts (R81 to R85). -/
  since : Nat
  /-- The port enters FLUSH once the frame in transmission is complete (R84). -/
  closing : Bool
  /-- Received pause timers: priority and FRC of expiry (R71). -/
  pauses : List (Nat × Nat)
  /-- XOFF priorities last sent, and the FRC at which the frame is due again (R70). -/
  fcSent : Nat
  fcDue : Option Nat
  /-- Verify packets sent and the FRC of the next (R74). -/
  verTries : Nat
  verDue : Nat
  /-- The gate list in force, its entry, the ToD at which it started, and the list that waits with its change time. -/
  gates : GateList
  gateCur : Nat
  gateStart : Nat
  gatePend : Option (Nat × GateList)
  /-- SET_AND_HOLD holds the preemptable MAC (R77). -/
  gateHold : Bool
  /-- Frames that a near-end loopback returns to the receive side, oldest first (R53). -/
  loop : List WireFrame
  deriving DecidableEq, Repr

/-! ## Frames (chapters 4 to 9) -/

/-- What a pen's parse gives (R96 to R107): the shape, the parse status of Table PS-16, the field slots, the layer marks
(kind, offset, inside a tunnel) and the predicted length. -/
structure Parse where
  shape : Nat
  status : Nat
  fields : List Nat
  layers : List (Nat × Nat × Bool)
  pred : Nat
  deriving DecidableEq, Repr

/-- A rewrite template as the pen took it (Table AV-8), with its 80 template bytes. -/
structure Tpl where
  decap : Bool
  encap : Nat
  popVlan : Nat
  pushVlan : Nat
  popMpls : Nat
  pushMpls : Nat
  copyTtl : Bool
  setSmac : Bool
  smac : Nat
  insLen : Nat
  ipOff : Nat
  udpOff : Nat
  v6 : Bool
  entropy : Bool
  data : List Byte
  deriving DecidableEq, Repr

/-- The edit list a pen passes on (R155): the action template, the next hop's template, DEC_TTL and DMAC. -/
structure Edits where
  act : Option Tpl
  nh : Option Tpl
  decTtl : Bool
  dmac : Option Nat
  deriving DecidableEq, Repr

/-- Where a frame stands. -/
inductive FLoc where
  /-- At the ingress MAC: its header window is not complete, or its dispatch is held. -/
  | mac
  /-- In a pen. -/
  | pen
  /-- Completed and waiting in the race for its predecessors. -/
  | race
  /-- A skip token in the race (R111). -/
  | skip
  /-- A pen reset has discarded the frame; the race keeps its dispatch data (Table FA-7). -/
  | lost
  /-- A copy that waits in the race with its original. -/
  | copyOf (id : Nat)
  /-- In an egress queue. -/
  | queue (q : Nat)
  /-- Selected: in transmission on a MAC of an egress port. -/
  | tx (port : Nat) (express : Bool)
  /-- Selected for host port 1024 and waiting for descriptors of a ring since an FRC (R299). -/
  | hostWait (ring since : Nat)
  /-- Unlinked, dropped or discarded before its tail has arrived: the rest follows at its tail (R188). -/
  | tail
  deriving DecidableEq, Repr

/-- The header window of a frame at the MAC (R29, R90, R114): not complete; complete with the frame, its event still to come;
complete, the frame waiting for the drove. The completion has its FRC and a serial number; stalled: a full reorder window
holds the dispatch, and the stall is counted. -/
inductive Win where
  | opening
  | complete (k : Nat)
  | waits (frc k : Nat) (stalled : Bool)
  deriving DecidableEq, Repr

/-- A frame or a copy inside the device. -/
structure Frame where
  id : Nat
  loc : FLoc
  /-- The frame on the wire whose bytes these are: its own id, or a copy's original (R158). -/
  wire : Nat
  win : Win
  /-- TRUNC of the session of a mirror copy, 0 for none (Table AV-10). -/
  trunc : Nat
  /-- KIND of Table TM-2: 0 original, 1 mirror copy, 2 copy to host; 3 a frame that the device sources itself, which has no
  record (R223, R287). -/
  kind : Nat
  mirror : Nat
  /-- The frame as its present pass receives it, FCS included. -/
  bytes : List Byte
  /-- Ingress port of the present pass and of pass 0, pass number, sequence numbers of this pass and of pass 0. -/
  inPort : Nat
  port0 : Nat
  pass : Nat
  seq : Nat
  seq0 : Nat
  /-- The pen of the last dispatch and the FRC of the dispatch. -/
  pen : Option Nat
  disp : Nat
  /-- Ingress stamp in 2^-16 ns of ToD, and the FRC of its event. -/
  stamp : Nat
  inFrc : Nat
  /-- The frame came over a flock data pipe: its ingress stamp is that of another device (R240, R261). -/
  overFlock : Bool
  srcDevid : Nat
  srcPort : Nat
  /-- Earmark, its version, and whether the frame holds it (R160). -/
  earmark : Nat
  ver : Nat
  holds : Bool
  /-- Received through the preemptable MAC of a port with preemption active (R66). -/
  preempted : Bool
  /-- What the wire shows at the tail (R64, R75, R261). -/
  fragments : Nat
  assemblyErr : Bool
  smdErr : Bool
  blockErr : Bool
  phy : PhyErrs
  /-- The settings that the frame began with (R25): MAX_FRAME at its MAC; MAL_ACTION, LM_ACTION and RACE_TIMEOUT at its
  dispatch. -/
  maxFrame : Nat
  malAct : Nat
  lmAct : Nat
  raceTo : Nat
  /-- The last byte has been received. -/
  ended : Bool
  /-- The drop reason a bad tail gives (R34), or that a copy has met in the pen; 0 for none. -/
  bad : Nat
  parse : Parse
  hash : Nat
  fid : Nat
  vrf : Nat
  tc : Nat
  /-- Resolved egress port, its queue, trap, in-band command, and the edits. -/
  egress : Nat
  qnum : Nat
  trap : Bool
  command : Bool
  edits : Edits
  growth : Int
  colour : Nat
  /-- Counter pairs, tally updates (table, key), policers debited (policer, bytes, committed bucket, excess bucket). -/
  counters : List Nat
  tallies : List (Nat × Nat)
  debits : List (Nat × Nat × Bool × Bool)
  stray : Bool
  hopOff : Option Nat
  hopOvf : Bool
  /-- From the transmit descriptor (Table HP-7): DIRECT, one-step, two-step and its tag. -/
  direct : Bool
  oneStep : Bool
  twoStep : Bool
  tsTag : Nat
  /-- Bytes received at the ingress MAC in pass 0, discarded ones included (LENGTH of Table TM-2). -/
  len0 : Nat
  /-- FRC of the completion in the pen and of the release by the race (RACE_WAIT of Table TM-2). -/
  doneFrc : Nat
  relFrc : Nat
  /-- SOJOURN of Table TM-2, once selected. -/
  soj : Nat
  /-- Fold: requester, BU charged, cells (pool, index) in order, FRC of admission, queue depth at admission. -/
  req : Nat
  charge : Nat
  cells : List (Nat × Nat)
  admFrc : Nat
  depth : Nat
  /-- Egress: cut-through, FRC of the selection and its stamp, egress length b charged, the class that served the frame and
  the shapers charged. -/
  cut : Bool
  selFrc : Nat
  selStamp : Nat
  egLen : Nat
  selClass : Nat
  charged : List Nat
  /-- Preemption (R75): how often the frame has been interrupted, the FRC from which its present fragment is sent (none
  while it stands), the bytes sent in earlier fragments; and whether its gate has closed on it in transmission (R78). -/
  frags : Nat
  fragFrc : Option Nat
  fragSent : Nat
  gateShut : Bool
  /-- A drop reason that egress has met (stomp, truncation), 0 for none, and the bytes sent of a frame cut off before its
  tail arrived. -/
  stomp : Nat
  sentLen : Nat
  /-- The bytes that leave, once fixed at selection. -/
  sendBody : List Byte
  deriving DecidableEq, Repr

/-! ## Host port (chapter 13) -/

/-- An entry of a function's MSI-X table (R296): message address, message data and the mask bit. -/
structure MsixEntry where
  addr : Nat
  data : Nat
  masked : Bool
  deriving DecidableEq, Repr

/-- The functions: the entries of their MSI-X tables, the FRC of the oldest pending event of a vector, the bytes of records
packed in the buffer that a ring fills, and the TX ring served last. -/
structure HostSt where
  msix : List (Nat × MsixEntry)
  fill : List (Nat × List Byte)
  lastTx : Nat
  /-- FRC of the oldest pending event of a vector (R304). -/
  oldest : List (Nat × Nat)
  deriving DecidableEq, Repr

/-! ## Tables and learning (chapter 5) -/

/-- A stray notice that waits (Table FT-22). -/
structure Notice where
  seq : Nat
  flags : Nat
  earmark : Nat
  fid : Nat
  port : Nat
  table : Nat
  addr : Nat
  stamp : Nat
  oldResult : Nat
  devid : Nat
  deriving DecidableEq, Repr

/-- A pending-filter entry (R140). -/
structure FilterEntry where
  addr : Nat
  fid : Nat
  port : Nat
  since : Nat
  deriving DecidableEq, Repr

/-- What the tables hold beside their objects: LPM lookups counted, the stalls of each EM bank's full queue since QUEUE_FULL
was last read (R137), the pending filter, the notice queue and the next notice SEQ. -/
structure TabSt where
  lpmLookups : Nat
  stalls : List (Nat × Nat)
  filter : List FilterEntry
  notices : List Notice
  nextNotice : Nat
  deriving DecidableEq, Repr

/-! ## Actions and versions (chapter 6) -/

/-- A version commit or prepare that waits (R161, R361): its held command, none where it is the shepherd's own part of a
flock-wide commit (R362); whether it prepares; its deadline on the FRC. -/
structure VerWait where
  who : Option Nat
  prepare : Bool
  deadline : Nat
  deriving DecidableEq, Repr

/-- What the versions and mirror sessions hold beside their objects: the FRC at which a slot left CURRENT, the commit or
prepare that waits, the slot that a prepare has reserved, and the frames counted for each mirror session since its count
started (R158). -/
structure VerSt where
  left : List (Nat × Nat)
  wait : Option VerWait
  prepared : Option Nat
  mirrors : List (Nat × Nat)
  deriving DecidableEq, Repr

/-! ## Fold and scheduler (chapters 7, 8) -/

/-- The fold's cells: the allocated cell offsets of each block, rising; and the override of R178. -/
structure FoldSt where
  used : List (Nat × List Nat)
  override : Bool
  deriving DecidableEq, Repr

/-- An active entity of weighted service (R194): its start, the weight with which the tag of the frame it would send was
computed (R208), and that frame. -/
structure Active where
  start : Nat
  weight : Nat
  frame : Nat
  deriving DecidableEq, Repr

/-- The scheduler: the start tags of active queues and classes (R194); shaper credits, policer buckets in units of
1 / 40,960,000 byte, exact, and the FRC of their last refill (R196, R202). -/
structure SchedSt where
  qStart : List (Nat × Active)
  cStart : List (Nat × Active)
  credit : List (Nat × Int)
  shLast : List (Nat × Nat)
  bktC : List (Nat × Int)
  bktE : List (Nat × Int)
  polLast : List (Nat × Nat)
  deriving DecidableEq, Repr

/-! ## Telemetry (chapter 9) -/

/-- The export path: tokens in thousandths of a record with the FRC of their last refill, SENT records since the last one
offered, the FIFO (each record its six words), the export frame being filled with the FRC of its first record, and closed
frames that wait for admission, each with the ToD of its close in ns and its records (R222, R223). -/
structure TelemSt where
  tokens : Nat
  tokLast : Nat
  sample : Nat
  fifo : List (List Word)
  filling : List (List Word)
  fillSince : Nat
  closed : List (Nat × List (List Word))
  deriving DecidableEq, Repr

/-! ## Flock links (chapter 11) -/

/-- A superframe that a near-end loopback returns: its overhead block and the superframe before it (R53). -/
structure LoopFrame where
  overhead : BitVec 128
  before : Superframe
  deriving DecidableEq, Repr

/-- The framer of an octet. Sending: MFC of the next superframe, whether the multiframe announces a page switch, the last
superframe sent and its BIP-8, and the blocks of the data pipe, of the control pipe and the time records that wait for
their slots. Receiving: the MFC of the superframe in reception as counted on, the last accepted MFC, the position of the next
overhead block, the payload of the last one, the hunt's candidates (next position, MFC, count), errored overhead blocks in a
row, the runs of the criteria of Table FL-7 (MFC out of and in sequence, AIS code 0x2 and another, RDI 1 and 0), the LOM,
AIS and RDI changes whose criterion has held (defect, declare) and that wait for their declaration, the reported defects,
the FRC of the last change of IN_FRAME, whether every lane of the octet is good and the FRC of the last change of that (LOS
of Table FL-7), the PAGE_NEXT values of MFC 252 to 255, and the slots that carried all ones in each of the last two
superframes. What a near-end loopback returns: superframes, control packets, time records (R53). -/
structure LinkSt where
  txMfc : Nat
  announce : Bool
  txLast : Superframe
  txBip : BitVec 8
  txData : List Block
  txCtrl : List Block
  txTime : List (BitVec 256)
  base : Nat
  accepted : Nat
  next : Nat
  lastOh : BitVec 128
  cands : List (Nat × Nat × Nat)
  fawBad : Nat
  mfcBad : Nat
  mfcGood : Nat
  aisOn : Nat
  aisOff : Nat
  rdiOn : Nat
  rdiOff : Nat
  due : List (Nat × Bool)
  reported : List Nat
  frameSince : Nat
  lanesGood : Bool
  lanesSince : Nat
  votes : List Bool
  ones : List (BitVec 128)
  loop : List LoopFrame
  loopCtrl : List (List Byte)
  loopTime : List (BitVec 256)
  deriving DecidableEq, Repr

/-- The elastic store of a cross-connected slot (R264): the superframes of the slot that it holds, oldest first, and the
last one sent; none is a superframe of the two that the store starts filled with. -/
structure Elastic where
  held : List (Option (List Block))
  last : Option (List Block)
  deriving DecidableEq, Repr

/-- The framers by octet, and the elastic stores of cross-connections by octet × 128 + slot (R264). -/
structure FlockSt where
  links : List (Nat × LinkSt)
  stores : List (Nat × Elastic)
  deriving DecidableEq, Repr

/-! ## Crook (chapters 12 and 14) -/

/-- An accepted command that has not replied: its acceptance number, the request, the context that executes it, for a COMMIT
the staged values that objects written since its acceptance had at its acceptance (R10), the FRC at its acceptance (R161),
and on a shepherd the devices in STATE MEMBER at its acceptance (R355, R362). -/
structure Held where
  n : Nat
  req : Request
  ctx : Option Nat
  late : List (Nat × ObjVal)
  frc : Nat
  members : List Nat
  deriving DecidableEq, Repr

/-- What an execution context has of its own (R308): its microaddress, its return stack of at most 8 entries, the last one
first, and its 64 scratch registers, those not listed being 0. -/
structure Context where
  uaddr : Nat
  stack : List Nat
  scratch : List (Nat × Nat)
  deriving DecidableEq, Repr

/-- A PCIe command queue (Table CP-6), its current PHASE, and the finished completions that a full completion ring holds
back: status, bytes and USER. -/
structure CmdQueue where
  sqBase : Nat
  cqBase : Nat
  enable : Bool
  sqLog2 : Nat
  cqLog2 : Nat
  sqTail : Nat
  sqHead : Nat
  cqHead : Nat
  cqTail : Nat
  phase : Bool
  done : List (Nat × Nat × BitVec 32)
  deriving DecidableEq, Repr

/-- A replay window (R281): its high value, and the marks of high − i in bit i. -/
structure Window where
  high : Nat
  marks : Nat
  deriving DecidableEq, Repr

/-- A sideband packet to send: destination, packet, sends so far, and whether it is a reply. -/
structure SbOut where
  dst : Nat
  bytes : List Byte
  tries : Nat
  reply : Bool
  deriving DecidableEq, Repr

/-- The station of the sideband ring (R288, R289): packets taken that wait, packets to send, the frame that is on the ring,
the monitor's generation, whether it has issued a token, and the FRC of the last token seen, of the last token issued, of the
start of claiming and of the last claim. -/
structure SbSt where
  input : List (Nat × List Byte)
  out : List SbOut
  flying : Option SbOut
  gen : BitVec 8
  issued : Bool
  lastToken : Nat
  lastIssue : Nat
  claimSince : Nat
  lastClaim : Nat
  deriving DecidableEq, Repr

/-- The crook: commands held in order of acceptance, the contexts that are not as reset, the next acceptance number, the
stream and number of replies other than OK since the stream's last fence (R274), the replay windows, the custody secret and
its writes left (R352), the command queues, the sideband station, and the packets of control pipes, by octet, that wait while
256 commands are held (R276). -/
structure CrookSt where
  held : List Held
  contexts : List (Nat × Context)
  nextHeld : Nat
  failed : List (Nat × Nat)
  winH : Window
  winS : Window
  secret : Option Nat
  writesLeft : Nat
  queues : List (Nat × CmdQueue)
  sb : SbSt
  ctrl : List (Nat × List Byte)
  deriving DecidableEq, Repr

/-! ## Flock management (chapter 17) and muster (R227 to R230) -/

/-- A command sent on for the held command n to a device, with the packet sent and its deadline on the FRC (R354, R355). -/
structure Relay where
  n : Nat
  dst : Nat
  pkt : Packet
  deadline : Nat
  deriving DecidableEq, Repr

/-- The replies of a BCAST command so far: the shepherd's own and those of the devices that have answered or timed out. -/
structure Bcast where
  n : Nat
  own : Option Packet
  got : List (Nat × Packet)
  deriving DecidableEq, Repr

/-- A flock-wide version commit (R362): the held command, its phase (0 preparing, 1 committing, 2 discarding), EXPECT where
given, W, the devices that have answered OK and otherwise, the deadline of the prepare, and the FRC of the next resend. -/
structure FlockCommit where
  n : Nat
  phase : Nat
  expect : Option Nat
  members : List Nat
  ok : List Nat
  bad : List Nat
  deadline : Nat
  nextSend : Nat
  deriving DecidableEq, Repr

/-- What the shepherd has in flight for a device: a challenge with its nonce's number and deadline, or an ADMIT with its
mode, cause, the held command it serves, whether it ends a check that joins the device, and its deadline (R357, R358). -/
inductive MemOp where
  | challenge (nonce deadline : Nat)
  | admission (mode cause : Nat) (who : Option Nat) (join : Bool) (deadline : Nat)
  deriving DecidableEq, Repr

/-- What the shepherd holds for a device beside its MEMBER object: the operation in flight, challenges missed in a row, the
last window S value used, the window S value of its last valid reply, and the FRC of the last check's start. -/
structure MemberSt where
  op : Option MemOp
  misses : Nat
  lastSeq : Nat
  winS : Nat
  started : Nat
  deriving DecidableEq, Repr

/-- Flock management: the first COMMIT of unit IDENT since reset has been accepted (R357), the devices, the challenges
drawn, the relays, the BCAST commands, the flock-wide commit, and the stray sent upstream with its deadline (R359). -/
structure MgmtSt where
  committed : Bool
  members : List (Nat × MemberSt)
  nonces : Nat
  relays : List Relay
  bcasts : List Bcast
  commit : Option FlockCommit
  notice : Option (Notice × Nat)
  deriving DecidableEq, Repr

/-- A muster dump in progress: SEQ, payload words, the ToD in ns of its start and end, the ticks skipped before it, its
buffer address (none: to the shepherd), the chunks not yet answered (offset and words), the sends of the first of them, the
deadline of its answer, and the FRC of its resend. -/
structure Dump where
  seq : Nat
  payload : List Word
  start : Nat
  fin : Nat
  skipped : Nat
  addr : Option Nat
  chunks : List (Nat × List Word)
  sends : Nat
  deadline : Option Nat
  resend : Option Nat
  deriving DecidableEq, Repr

/-- The muster: SEQ of the last dump taken, the FRC of the next tick, ticks skipped since it, and the dump in progress. -/
structure MusterSt where
  lastSeq : Nat
  nextTick : Nat
  lost : Nat
  dump : Option Dump
  deriving DecidableEq, Repr

/-- What leaves the device. DESIGN CHOICE, log entry 9. -/
inductive Out where
  /-- A frame on a front port, FCS included; cut: the egress was cut off before its end. -/
  | frame (port : Nat) (bytes : List Byte) (cut : Bool)
  /-- A frame on the data pipe of an octet with its START block (R261). -/
  | pipe (port : Nat) (start : PipeStart) (bytes : List Byte) (cut : Bool)
  /-- A PAUSE or PFC frame (R70). -/
  | flowControl (port : Nat) (bytes : List Byte)
  /-- A verify packet of preemption (R74). -/
  | verify (port : Nat)
  /-- A superframe on an octet: its overhead block, the slots that are not idle, and its gap in filler blocks (R252). -/
  | superframe (octet : Nat) (overhead : BitVec 128) (slots : List (Nat × List Block)) (gap : Nat)
  /-- A time record on the time channel of an octet (R247). -/
  | timeRecord (octet : Nat) (record : BitVec 256)
  /-- A Novha packet on the control pipe of an octet, behind its START block, its FCS included (R261, R263). -/
  | control (octet : Nat) (start : PipeStart) (bytes : List Byte)
  /-- An MSI-X message of a vector of a function: the data written at the address of its table entry (R296, R304). -/
  | msi (vector addr data : Nat)
  /-- A token on the sideband ring (R288). -/
  | sbToken (gen : BitVec 8) (mon : Bool)
  /-- A DATA frame on the sideband ring: MON, destination, sender, packet, A, C (Table CP-8). -/
  | sbData (mon : Bool) (dst src : Nat) (packet : List Byte) (a c : Bool)
  /-- A CLAIM frame on the sideband ring. -/
  | sbClaim (src : Nat)
  /-- A request on the AVS interface (Table EL-4). -/
  | avs (w : BitVec 32)
  deriving DecidableEq, Repr

structure State where
  pending : List Instr
  live : List (Nat × ObjVal)
  staged : List (Nat × ObjVal)
  hostMem : List Host.Cell
  out : List Out
  free : Nat
  sys : SysSt
  time : TimeSt
  log : RecSt
  flash : FlashSt
  flt : FaultSt
  pace : PaceSt
  lanes : List (Nat × LaneSt)
  ports : List (Nat × PortSt)
  host : HostSt
  tab : TabSt
  ver : VerSt
  frames : List Frame
  nextFrame : Nat
  /-- The last pen used by the drove (R90). -/
  lastPen : Nat
  fold : FoldSt
  sched : SchedSt
  /-- The nanosecond of FRC that a counter in level mode counted last (R226). -/
  perf : List (Nat × Nat)
  telem : TelemSt
  flock : FlockSt
  crook : CrookSt
  mgmt : MgmtSt
  muster : MusterSt
  deriving DecidableEq, Repr

/-! ## After reset

Counts, tables and lists that the manual starts empty or at 0 stand so. Values that the manual leaves open are named in
notes/assumptions. -/

/-- The device at the end of RESET_N: PHASE 001, straps low. DESIGN CHOICE, log entry 13. -/
def sysReset : SysSt :=
  { inReset := false, perst := false, role := false, devid := 0, phase := 1, fuses := false, crookOn := false,
    romOk := false, testDone := false, testFail := false, calDone := false, logReady := false, byCommand := false, romDone := false, elapsed := none,
    bellwether := false, bellSince := 0, faultN := false, resetDue := false, boots := 0 }

/-- FRC and ToD start at 0 (R233). -/
def timeReset : TimeSt :=
  { frc := 0, tod := 0, adj := 0, integ := 0, lastSample := 0, trefLost := false, lastPps := none, touts := [],
    fifo := [], links := [], lastRecord := none }

/-- No store is kept at power-on; events are held until ready (R390). -/
def logReset : RecSt :=
  { recs := [], held := [], holding := true, logId := 1, firstSeq := 0, lastSeq := 0, full := false, source := 0,
    kept := false, clears := [], cleared := false, fatal := none }

/-- A blank flash device of 1,024 blocks with 2,048-byte pages on the port. DESIGN CHOICE, log entry 15. -/
def flashReset : FlashSt :=
  { present := true, nblocks := 1024, pageBytes := 2048, blocks := [], freeErases := 0, state := 0, prog := none,
    nextBlockSeq := 0, lastPatrol := none }

def faultReset : FaultSt :=
  { levels := [], timers := [], insts := [], due := [], isolated := [], upset := [], fatal := false }

def paceReset : PaceSt := { highCount := 0, asks := false, lastSample := none, unacked := none, lastResend := 0, lastRead := 0 }

def hostPortReset : HostSt := { msix := [], fill := [], lastTx := 0, oldest := [] }

def tabReset : TabSt := { lpmLookups := 0, stalls := [], filter := [], notices := [], nextNotice := 0 }

def verReset : VerSt := { left := [], wait := none, prepared := none, mirrors := [] }

/-- The self-test overrides the carving (R178, R368). -/
def foldReset : FoldSt := { used := [], override := true }

def schedReset : SchedSt :=
  { qStart := [], cStart := [], credit := [], shLast := [], bktC := [], bktE := [], polLast := [] }

/-- Tokens start full at EXP_BURST (R222). -/
def telemReset : TelemSt :=
  { tokens := F.telemCfg_EXP_BURST.rst * 1000, tokLast := 0, sample := 0, fifo := [], filling := [], fillSince := 0,
    closed := [] }

/-- The station claims (R289). -/
def sbReset : SbSt :=
  { input := [], out := [], flying := none, gen := 0, issued := false, lastToken := 0, lastIssue := 0, claimSince := 0, lastClaim := 0 }

/-- A window has high value 0, and 0 counts as marked (R281). -/
def windowReset : Window := { high := 0, marks := 1 }

def crookStReset : CrookSt :=
  { held := [], contexts := [], nextHeld := 0, failed := [], winH := windowReset, winS := windowReset, secret := none, writesLeft := 64,
    queues := [], sb := sbReset, ctrl := [] }

def mgmtReset : MgmtSt :=
  { committed := false, members := [], nonces := 0, relays := [], bcasts := [], commit := none, notice := none }

def musterReset : MusterSt := { lastSeq := 0, nextTick := 0, lost := 0, dump := none }

/-- The device right after its first RESET_N pulse since power-on: every object at its reset value (R7). -/
def State.reset : State :=
  { pending := [], live := [], staged := [], hostMem := [], out := [], free := 0, sys := sysReset, time := timeReset,
    log := logReset, flash := flashReset, flt := faultReset, pace := paceReset, lanes := [], ports := [],
    host := hostPortReset, tab := tabReset, ver := verReset, frames := [], nextFrame := 0, lastPen := 95,
    fold := foldReset, sched := schedReset, perf := [], telem := telemReset, flock := { links := [], stores := [] },
    crook := crookStReset, mgmt := mgmtReset, muster := musterReset }

/-! ## How a command can stop -/

/-- Why a command stops short: none does, so there is no fault. -/
inductive Fault : Type
  deriving DecidableEq, Repr

/-- Why the model refuses a command. -/
inductive Refusal where
  /-- The model gives the command of that mnemonic no meaning; raised by an arm of exec. Safe: nothing runs. -/
  | notModelled (mnemonic : String)
  deriving DecidableEq, Repr

end Sys2Proof.Machine
end

