-- ==== Sys2Proof/Machine/Ops.lean ====
section
/-! DEFINITION. Machine/Ops.lean: the named operations over State: reading and writing an object's fields in the live and
the staged store, the staged-write rule, free values, host memory, the outgoing trace. -/

namespace Sys2Proof

/-- The width of a field in bits. -/
def Fld.width (f : Fld) : Nat := f.hi + 1 - f.lo

/-- The greatest value a field holds. -/
def Fld.max (f : Fld) : Nat := 2 ^ f.width - 1

end Sys2Proof

namespace Sys2Proof.Machine

open Sys2Proof

/-! ## Bits and numbers -/

/-- A Nat as a signed number of w bits, two's complement. -/
def toSigned (w x : Nat) : Int := if x < 2 ^ (w - 1) then (x : Int) else (x : Int) - (2 : Int) ^ w

/-- A signed number as its w-bit two's complement. -/
def ofSigned (w : Nat) (x : Int) : Nat := (x % (2 : Int) ^ w).toNat

/-- A signed number held within w bits, two's complement, by saturation. -/
def satSigned (w : Nat) (x : Int) : Int := max (-(2 : Int) ^ (w - 1)) (min ((2 : Int) ^ (w - 1) - 1) x)

/-- Bit i of a number. -/
def bit (x i : Nat) : Bool := x / 2 ^ i % 2 == 1

/-- Bits hi to lo of a number. -/
def bits (x hi lo : Nat) : Nat := x / 2 ^ lo % 2 ^ (hi + 1 - lo)

/-- x with bit i set or cleared. -/
def setBit (x i : Nat) (b : Bool) : Nat :=
  if bit x i == b then x else if b then x + 2 ^ i else x - 2 ^ i

/-- The smallest multiple count: the quotient rounded up. -/
def ceilDiv (a b : Nat) : Nat := (a + b - 1) / b

/-- 1 for true, 0 for false. -/
def b2n (b : Bool) : Nat := if b then 1 else 0

/-- The list of the numbers lo to lo + n - 1. -/
def rangeFrom (lo n : Nat) : List Nat := (List.range n).map (lo + ·)

/-- The least element of a list that a key orders, the first on ties. -/
def minBy {α : Type} (key : α → Nat) : List α → Option α
  | [] => none
  | x :: xs =>
    match minBy key xs with
    | none => some x
    | some y => if key x ≤ key y then some x else some y

/-- An element put into a list that a key orders. -/
def insBy {α : Type} (key : α → Nat) (x : α) : List α → List α
  | [] => [x]
  | y :: ys => if key x < key y then x :: y :: ys else y :: insBy key x ys

/-- A list sorted by a key. -/
def sortBy {α : Type} (key : α → Nat) (xs : List α) : List α := xs.foldl (fun l x => insBy key x l) []

/-! ## Sparse maps

A sparse map lists the keys whose value is not the default, with the keys strictly rising. -/

/-- The value at a key. -/
def lookD {β : Type} (d : β) : List (Nat × β) → Nat → β
  | [], _ => d
  | (k, v) :: m, q => if k == q then v else lookD d m q

/-- The map without a key. -/
def dropKey {β : Type} (m : List (Nat × β)) (q : Nat) : List (Nat × β) := m.filter fun e => e.1 != q

/-- A key and its value put in at its place. -/
def insKey {β : Type} (q : Nat) (v : β) : List (Nat × β) → List (Nat × β)
  | [] => [(q, v)]
  | (k, w) :: m =>
    if q < k then (q, v) :: (k, w) :: m
    else if q == k then (q, v) :: m
    else (k, w) :: insKey q v m

/-- The map with a key at a value; the default value removes the entry. -/
def putD {β : Type} [DecidableEq β] (d : β) (m : List (Nat × β)) (q : Nat) (v : β) : List (Nat × β) :=
  if v = d then dropKey m q else insKey q v m

/-! ## Objects and fields (R5 to R10) -/

/-- A field's value in an object's value. -/
def fldGet (v : ObjVal) (f : Fld) : Nat := (v.extractLsb' f.lo f.width).toNat

/-- The bits of a field. -/
def fldMask (f : Fld) : ObjVal := (BitVec.allOnes 512 >>> (512 - f.width)) <<< f.lo

/-- An object's value with a field set; the value is taken modulo the field's width. -/
def fldSet (v : ObjVal) (f : Fld) (x : Nat) : ObjVal :=
  (v &&& ~~~fldMask f) ||| (BitVec.ofNat 512 (x % 2 ^ f.width) <<< f.lo)

/-- The live value of an object. -/
def State.obj (s : State) (c : Cls) (i : Nat) : ObjVal := lookD (resetVal c i) s.live (oid c i)

/-- The staged copy of an object (R8 ST). -/
def State.stagedObj (s : State) (c : Cls) (i : Nat) : ObjVal := lookD (resetVal c i) s.staged (oid c i)

/-- The state with an object's live value set. -/
def State.setObj (s : State) (c : Cls) (i : Nat) (v : ObjVal) : State :=
  { s with live := putD (resetVal c i) s.live (oid c i) v }

/-- The state with an object's staged copy set. -/
def State.setStagedObj (s : State) (c : Cls) (i : Nat) (v : ObjVal) : State :=
  { s with staged := putD (resetVal c i) s.staged (oid c i) v }

/-- A live field. -/
def State.get (s : State) (f : Fld) (i : Nat) : Nat := fldGet (s.obj f.cls i) f

/-- A staged field. -/
def State.getSt (s : State) (f : Fld) (i : Nat) : Nat := fldGet (s.stagedObj f.cls i) f

/-- A live bit field as a Bool. -/
def State.on (s : State) (f : Fld) (i : Nat) : Bool := s.get f i == 1

/-- A field as a COMMIT of some units would make it: the staged copy of a field of those units, else the live value. -/
def State.eff (s : State) (us : List Nat) (f : Fld) (i : Nat) : Nat :=
  if us.contains f.cls.row.unit then s.getSt f i else s.get f i

/-- The state with a live field set. -/
def State.put (s : State) (f : Fld) (i x : Nat) : State := s.setObj f.cls i (fldSet (s.obj f.cls i) f x)

/-- The state with a staged field set. -/
def State.putSt (s : State) (f : Fld) (i x : Nat) : State :=
  s.setStagedObj f.cls i (fldSet (s.stagedObj f.cls i) f x)

/-- The state with several live fields set, in order. -/
def State.puts (s : State) (i : Nat) : List (Fld × Nat) → State
  | [] => s
  | (f, x) :: fs => (s.put f i x).puts i fs

/-- The bits of a class that have one of some access codes. -/
def accMask (c : Cls) (as : List Access) : ObjVal :=
  (c.fields.filter fun f => as.contains f.acc).foldl (fun m f => m ||| fldMask f) 0

/-- The object with the bits of a mask taken from another value. -/
def mergeBits (old new mask : ObjVal) : ObjVal := (old &&& ~~~mask) ||| (new &&& mask)

/-- An object number's class, where one has its unit and class codes (R6). -/
def clsOf (unit code : Nat) : Option Cls := (classesOf unit).find? fun c => c.row.code == code

/-- A checker ID names a checker of Table FA-2. -/
def checkerOk (chk : Nat) : Bool :=
  let n := chk % 2 ^ 24
  match chk / 2 ^ 24 with
  | 0x01 => n < 128
  | 0x03 => n == 0
  | 0x04 => n ≤ 96
  | 0x05 => n ≤ 1025
  | 0x06 => n < 2048
  | 0x07 => n ≤ 16
  | 0x08 => n < 4
  | 0x09 => n == 0
  | 0x0A => n ≤ 258
  | 0x0B => n ≤ 1034
  | 0x0C => n < 4
  | 0x0D => n == 0
  | 0x0E => n < 128
  | 0x0F => n == 0
  | 0x10 => n == 0
  | 0x11 => n == 0
  | 0x12 => n < 16
  | 0x13 => n == 0
  | 0x14 => n == 0
  | 0x15 => n == 0
  | _ => false

/-- The n indices from i on lie in a class's range (R6); those of CHK_STATUS are the checkers of Table FA-2, a unit's without
a gap (R317, R318). -/
def rangeOk (c : Cls) (i n : Nat) : Bool :=
  i + n ≤ c.row.count &&
    (c != .chkStatus || n == 0 || (checkerOk i && checkerOk (i + n - 1) && i / 2 ^ 24 == (i + n - 1) / 2 ^ 24))

/-- The class and index an object number names, where the index lies in the class's range (R6). -/
def decodeOid (o : Nat) : Option (Cls × Nat) :=
  match clsOf (o / 2 ^ 40 % 256) (o / 2 ^ 32 % 256) with
  | none => none
  | some c => if rangeOk c (o % 2 ^ 32) 1 then some (c, o % 2 ^ 32) else none

/-- The unit code of an object number. -/
def oidUnit (o : Nat) : Nat := o / 2 ^ 40 % 256

/-! ## Free values, trace, host memory -/

/-- A value the manual leaves open, and the state that has used it. DESIGN CHOICE, log entry 10. -/
def State.draw (s : State) : Nat × State := (Config.freeValue s.free, { s with free := s.free + 1 })

/-- A live field takes a value the manual leaves open. -/
def State.putFree (s : State) (f : Fld) (i : Nat) : State :=
  { s.put f i (Config.freeValue s.free) with free := s.free + 1 }

/-- Something leaves the device. DESIGN CHOICE, log entry 9. -/
def State.emit (s : State) (o : Out) : State := { s with out := s.out ++ [o] }

/-- What an address of host memory that nothing has written reads as. DESIGN CHOICE, log entry 6. -/
def hostBlank : Byte := 0

/-- A byte of host memory. DESIGN CHOICE, log entry 6. -/
def State.hostByte (s : State) (a : Nat) : Byte := lookD hostBlank s.hostMem (a % 2 ^ 64)

/-- A byte written to host memory, whose addresses have 64 bits. -/
def State.setHostByte (s : State) (a : Nat) (b : Byte) : State :=
  { s with hostMem := putD hostBlank s.hostMem (a % 2 ^ 64) b }

/-- Bytes written to host memory from an address on. -/
def State.setHostBytes (s : State) (a : Nat) : List Byte → State
  | [] => s
  | b :: bs => (s.setHostByte a b).setHostBytes (a + 1) bs

/-- n bytes of host memory from an address on. -/
def State.hostBytes (s : State) (a n : Nat) : List Byte := (rangeFrom a n).map s.hostByte

/-- A 64-bit word as eight bytes, the least significant first (R13). -/
def leBytes (w : Word) : List Byte := (List.range 8).map fun i => w.extractLsb' (8 * i) 8

/-- A 64-bit word as eight bytes, the most significant first. -/
def beBytes (w : Word) : List Byte := (List.range 8).map fun i => w.extractLsb' (56 - 8 * i) 8

/-- A number as n bytes, the most significant first. -/
def natBytes (n x : Nat) : List Byte := (List.range n).map fun i => BitVec.ofNat 8 (x / 2 ^ (8 * (n - 1 - i)))

/-- The number that bytes spell, the most significant first. -/
def bytesNat (bs : List Byte) : Nat := bs.foldl (fun a b => a * 256 + b.toNat) 0

/-- Words written to host memory, little-endian, from an address on (R13). -/
def State.setHostWords (s : State) (a : Nat) (ws : List Word) : State :=
  s.setHostBytes a (ws.flatMap leBytes)

/-- Word i of host memory from an address on (R13). -/
def State.hostWord (s : State) (a : Nat) : Word :=
  BitVec.ofNat 64 (bytesNat (s.hostBytes a 8).reverse)

/-- n bytes of a list from an offset, with zeros past its end. -/
def slice (bs : List Byte) (off n : Nat) : List Byte :=
  let t := (bs.drop off).take n
  t ++ List.replicate (n - t.length) 0

/-- A list with the bytes from an offset replaced. -/
def splice (bs : List Byte) (off : Nat) (new : List Byte) : List Byte :=
  bs.take off ++ new ++ bs.drop (off + new.length)

/-! ## Outcomes -/

/-- A next state. -/
abbrev ok (s : State) : Host.Outcome State Fault Refusal := .next s

/-- A command about element i of n; an element that the device does not have meets no event, so nothing changes.
DESIGN CHOICE, log entry 5. -/
def onRange (n i : Nat) (s : State) (f : State → State) : Host.Outcome State Fault Refusal :=
  .next (if i < n then f s else s)

/-- A command about element i of a class: an index the class does not have names no element (R6).
DESIGN CHOICE, log entry 5. -/
def onIdx (c : Cls) (i : Nat) (s : State) (f : State → State) : Host.Outcome State Fault Refusal :=
  onRange c.row.count i s f

/-- A condition of the manual guards an effect: where it does not hold, nothing happens (R2). -/
def whenever (b : Bool) (f : State → State) (s : State) : State := if b then f s else s

end Sys2Proof.Machine
end

