-- ==== Sys2Proof/Machine/Rows.lean ====
section
/-! DEFINITION. Machine/Rows.lean: what the rows of the table share: the outcome of a command, and when the device takes
events at all. -/

namespace Sys2Proof.Machine

open Sys2Proof

/-- The outcome of a command. -/
abbrev StepResult := Host.Outcome State Fault Refusal

/-- An event of the device: none happens while RESET_N is asserted (R365).
DESIGN CHOICE, log entry 3. DEDUCED, log entry 88. -/
def live (f : State → State) (s : State) : State := if s.sys.inReset then s else f s

/-- An event of the frame path, which a fatal fault stops as well (R329).
DESIGN CHOICE, log entry 3. DEDUCED, log entry 89. -/
def path (f : State → State) (s : State) : State := if s.sys.inReset || s.flt.fatal then s else f s

end Sys2Proof.Machine
end

