-- ==== Sys2Proof/Machine/Flags.lean ====
section
/-! DEFINITION. Machine/Flags.lean: the counters and sticky bits of the objects: saturating counters, wrapping counters
with their WRAPPED bit (R8), and the status codes of replies (R293). -/

namespace Sys2Proof.Machine

open Sys2Proof

/-- A saturating counter field, n added. -/
def State.addSat (s : State) (f : Fld) (i n : Nat) : State := s.put f i (min f.max (s.get f i + n))

/-- A saturating counter field, 1 added. -/
def State.inc (s : State) (f : Fld) (i : Nat) : State := s.addSat f i 1

/-- A wrapping counter field, n added. DEDUCED, log entry 21. -/
def State.addWrap (s : State) (f : Fld) (i n : Nat) : State := s.put f i (s.get f i + n)

/-- A counter that wraps and sets its sticky WRAPPED bit when it does. -/
def State.addSticky (s : State) (v w : Fld) (i n : Nat) : State :=
  let x := s.get v i + n
  let t := s.put v i x
  if x > v.max then t.put w i 1 else t

/-! ## Status codes (Table CP-12) -/

def stOk : Nat := 0x00
def stPartial : Nat := 0x01
def stBusy : Nat := 0x02
def stNotFound : Nat := 0x03
def stExists : Nat := 0x04
def stNoSpace : Nat := 0x05
def stBadOpcode : Nat := 0x06
def stBadParam : Nat := 0x07
def stDenied : Nat := 0x08
def stMachineCheck : Nat := 0x09
def stTimeout : Nat := 0x0A
def stAborted : Nat := 0x0B
def stVersionConflict : Nat := 0x0C
def stUnitFailed : Nat := 0x0D
def stFenceBroken : Nat := 0x0E
def stQuarantined : Nat := 0x0F

end Sys2Proof.Machine
end

