-- ==== Sys2Proof/Machine/Clock.lean ====
section
/-! DEFINITION. Machine/Clock.lean: the FRC and the ToD as the units read them (R233), and the events of the host
notification vectors (R304). -/

namespace Sys2Proof.Machine

open Sys2Proof

/-- The unit of TimeSt.tod in one nanosecond. -/
def todUnit : Nat := 2 ^ 24 * 10 ^ 9

/-- The period of the ToD: 2^48 seconds. -/
def todPeriod : Nat := 2 ^ 48 * 10 ^ 9 * todUnit

/-- The FRC in ns. -/
def State.frc (s : State) : Nat := s.time.frc

/-- The ToD in ns. -/
def State.todNs (s : State) : Nat := s.time.tod / todUnit

/-- The ToD in units of 2^-16 ns. DESIGN CHOICE, log entry 58. -/
def State.tod16 (s : State) : Nat := s.time.tod / (2 ^ 8 * 10 ^ 9)

/-- Seconds, nanoseconds and fraction of a stamp in 2^-16 ns. -/
def stampSec (t : Nat) : Nat := t / (65536 * 10 ^ 9) % 2 ^ 48
def stampNs (t : Nat) : Nat := t / 65536 % 10 ^ 9
def stampFrac (t : Nat) : Nat := t % 65536

/-- A stamp of 2^-16 ns as a signed sum, modulo 2^48 seconds. -/
def stampAdd (t : Nat) (d : Int) : Nat := (((t : Int) + d) % ((2 : Int) ^ 48 * 10 ^ 9 * 65536)).toNat

/-- VECTOR index of vector v of a function (Table HP-1). -/
def vecIdx (fn v : Nat) : Nat := fn * 512 + v

/-- One event on a vector: PENDING saturates, and the holdoff counts from the oldest pending event (R304). -/
def notify (v : Nat) (s : State) : State :=
  let t := s.inc F.vector_PENDING v
  if s.get F.vector_PENDING v == 0 then
    { t with host := { t.host with oldest := insKey v s.frc t.host.oldest } }
  else t

end Sys2Proof.Machine
end

