-- ==== Sys2Proof/Machine/Bytes.lean ====
section
/-! DEFINITION. Machine/Bytes.lean: the checks over bytes: CRC-32C as R121 defines it, the Ethernet FCS, CRC-3 of the AVS
interface, the Internet checksum. -/

namespace Sys2Proof.Machine

open Sys2Proof

/-- One bit of a reflected CRC register. -/
def crcBit (poly c : BitVec 32) : BitVec 32 := if c.getLsbD 0 then (c >>> 1) ^^^ poly else c >>> 1

/-- One byte of a reflected CRC register. -/
def crcByte (poly c : BitVec 32) (b : Byte) : BitVec 32 :=
  let f := crcBit poly
  f (f (f (f (f (f (f (f (c ^^^ b.zeroExtend 32))))))))

/-- A reflected 32-bit CRC of bytes: the register loaded with init, the final inversion applied. -/
def crc32r (poly init : BitVec 32) (bs : List Byte) : BitVec 32 := ~~~(bs.foldl (crcByte poly) init)

/-- crc32c(bytes, init) of R121: the CRC-32C of RFC 3720 in full, its register loaded with init. DEDUCED, log entry 36. -/
def crc32c (bs : List Byte) (init : BitVec 32) : BitVec 32 := crc32r 0x82F63B78 init bs

/-- The FCS of an Ethernet frame over the bytes before it (IEEE 802.3). PRESUMED, log entry 12. -/
def fcsOf (bs : List Byte) : BitVec 32 := crc32r 0xEDB88320 0xFFFFFFFF bs

/-- The four FCS bytes as they are sent, the least significant byte of the register first. -/
def fcsBytes (bs : List Byte) : List Byte := (List.range 4).map fun i => (fcsOf bs).extractLsb' (8 * i) 8

/-- A frame body with its FCS. -/
def withFcs (bs : List Byte) : List Byte := bs ++ fcsBytes bs

/-- A frame body with a stomped FCS (R34): every bit of the FCS inverted. -/
def withStomp (bs : List Byte) : List Byte := bs ++ (fcsBytes bs).map (~~~·)

/-- A frame, FCS included, has a good FCS. -/
def fcsGood (bs : List Byte) : Bool :=
  4 ≤ bs.length && fcsBytes (bs.take (bs.length - 4)) == bs.drop (bs.length - 4)

/-- One bit of CRC-3, x^3 + x + 1 (Table EL-4). -/
def crc3Bit (c : BitVec 3) (d : Bool) : BitVec 3 :=
  if xor (c.getLsbD 2) d then (c <<< 1) ^^^ 3 else c <<< 1

/-- CRC-3 over bits 31:3 of an AVS word, bit 31 first, initial value 111 (Table EL-4). -/
def crc3 (w : BitVec 32) : BitVec 3 :=
  (List.range 29).foldl (fun c i => crc3Bit c (w.getLsbD (31 - i))) 7

/-- A one's-complement sum folded to 16 bits. -/
def foldSum (x : Nat) : Nat :=
  let y := x % 65536 + x / 65536
  let z := y % 65536 + y / 65536
  z % 65536 + z / 65536

/-- The one's-complement sum of the 16-bit words of bytes; an odd last byte is padded with zero. -/
def sumWords : List Byte → Nat
  | [] => 0
  | [a] => a.toNat * 256
  | a :: b :: bs => a.toNat * 256 + b.toNat + sumWords bs

/-- The one's-complement sum of bytes, 16 bits. -/
def inetSum (bs : List Byte) : Nat := foldSum (sumWords bs)

/-- RFC 1624: a checksum updated for a change of the covered words from old to new, HC' = ~(~HC + ~m + m'). -/
def sumUpdate (hc oldSum newSum : Nat) : Nat :=
  65535 - foldSum (foldSum ((65535 - hc) + (65535 - foldSum oldSum)) + foldSum newSum)

end Sys2Proof.Machine
end

