-- ==== Sys2Proof/Machine/FlashLayout.lean ====
section
/-! DEFINITION. Machine/FlashLayout.lean: what lies in flash byte for byte: record slots, block headers, pages (R340,
Tables ER-2 and ER-7). -/

namespace Sys2Proof.Machine

open Sys2Proof

/-! ## Records (Table ER-2) -/

/-- The four words of a record, W0 first. -/
def Rec.words (r : Rec) : List Word :=
  [BitVec.ofNat 64 (r.seq * 2 ^ 32 + r.code % 256 * 2 ^ 24 + b2n r.inj * 2 ^ 23 + b2n r.realInj * 2 ^ 22 +
      b2n r.isOpen * 2 ^ 21 + b2n r.restored * 2 ^ 20 + r.cls % 4 * 2 ^ 18 + r.rep % 65536),
   BitVec.ofNat 64 (r.tsSec % 2 ^ 48 * 2 ^ 16 + r.devid % 1024 * 2 ^ 6),
   BitVec.ofNat 64 (r.tsNs % 2 ^ 32 * 2 ^ 32 + r.info0 % 2 ^ 32),
   BitVec.ofNat 64 (r.info1 % 2 ^ 32 * 2 ^ 32 + r.crc.toNat)]

/-- The 32 bytes of a record, most significant byte first: a slot of a page. -/
def Rec.slot (r : Rec) : List Byte := r.words.flatMap beBytes

/-- The CRC over the first 28 bytes of a slot, OPEN and RESTORED taken as 0. -/
def slotCrc (bs : List Byte) : BitVec 32 := crc32c ((bs.modify 5 (· &&& 0xCF)).take 28) 0xFFFFFFFF

/-- The CRC of a record. -/
def Rec.calcCrc (r : Rec) : BitVec 32 := slotCrc r.slot

/-- A record with its CRC computed. -/
def Rec.sealed (r : Rec) : Rec := { r with crc := r.calcCrc }

/-- The CRC that a slot holds is the one of its bytes. -/
def slotGood (bs : List Byte) : Bool := (slotCrc bs).toNat == bytesNat ((bs.drop 28).take 4)

/-- The record that a slot holds. -/
def slotRec (bs : List Byte) : Rec :=
  let x := bytesNat (bs.take 32)
  { seq := bits x 255 224, code := bits x 223 216, inj := bit x 215, realInj := bit x 214, isOpen := bit x 213,
    restored := bit x 212, cls := bits x 211 210, rep := bits x 207 192, tsSec := bits x 191 144, devid := bits x 143 134,
    tsNs := bits x 127 96, info0 := bits x 95 64, info1 := bits x 63 32, crc := BitVec.ofNat 32 x }

/-! ## Pages -/

/-- Bytes in groups of 32; the fuel bounds the groups. -/
def groups32 : Nat → List Byte → List (List Byte)
  | 0, _ => []
  | n + 1, bs => if bs.length < 32 then [] else bs.take 32 :: groups32 n (bs.drop 32)

/-- The slots of a page that are in use: what is not programmed reads all ones, and a slot of all ones is unused. -/
def FPage.slots (p : FPage) : List (List Byte) :=
  (groups32 p.main.length p.main).filter fun bs => bs.any (· != 0xFF)

/-- A page of records as it is programmed. -/
def recordPage (rs : List Rec) : FPage := { readable := true, main := rs.flatMap Rec.slot }

/-! ## Block headers (Table ER-7) -/

/-- The bytes of a block header. -/
def blockHeader (logId blockSeq erases : Nat) : List Byte :=
  let front := natBytes 4 0x4744524C ++ [0x01, 0, 0, 0] ++ natBytes 4 (logId % 2 ^ 32) ++ natBytes 4 (blockSeq % 2 ^ 32) ++
    natBytes 3 (erases % 2 ^ 24) ++ List.replicate 9 0
  front ++ natBytes 4 (crc32c front 0xFFFFFFFF).toNat

/-- LOG_ID, BLOCK_SEQ and ERASES of a valid header at main byte 0 of page 0; none where there is none. -/
def headerOf (bs : List Byte) : Option (Nat × Nat × Nat) :=
  let x := bytesNat (bs.take 32)
  if bs.length < 32 || bits x 255 224 != 0x4744524C || bits x 223 216 != 1 ||
      (crc32c (bs.take 28) 0xFFFFFFFF).toNat != x % 2 ^ 32 then none
  else some (bits x 191 160, bits x 159 128, bits x 127 104)

/-- A block bad from the factory (R340). -/
def FBlock.badFromFactory (b : FBlock) : Bool := b.spare != 0xFF && (headerOf b.head).isNone

end Sys2Proof.Machine
end

