-- ==== Sys2Proof/Machine/Recorder.lean ====
section
/-! DEFINITION. Machine/Recorder.lean: the event recorder and its flash store (chapter 16). -/

namespace Sys2Proof.Machine

open Sys2Proof

/-! ## Records -/

/-- The SEQ after a SEQ, with 0x0000_0000 and 0xFFFF_FFFF skipped (R332). -/
def seqNext (n : Nat) : Nat :=
  let a := (n + 1) % 2 ^ 32
  if a = 0xFFFFFFFF then 1 else if a = 0 then 1 else a

/-- Two records are identical events (R334). -/
def Rec.sameEvent (a b : Rec) : Bool :=
  a.code == b.code && a.inj == b.inj && a.realInj == b.realInj && a.cls == b.cls && a.devid == b.devid &&
    a.info0 == b.info0 && a.info1 == b.info1

/-- A record of an event now, without its SEQ. -/
def newRec (s : State) (code cls : Nat) (inj realInj : Bool) (info0 info1 : Nat) : Rec :=
  { seq := 0, code, inj, realInj, isOpen := s.get F.recCfg_COLLAPSE_MS 0 != 0, restored := false, cls, rep := 0,
    tsSec := s.todNs / 10 ^ 9, devid := s.sys.devid, tsNs := s.todNs % 10 ^ 9, info0 := info0 % 2 ^ 32,
    info1 := info1 % 2 ^ 32, crc := 0 }

/-- A store entry of a new record. -/
def newEntry (s : State) (r : Rec) : LogEntry :=
  { r, since := s.frc, openMs := s.get F.recCfg_COLLAPSE_MS 0, prog := none, flying := none,
    waiting := true }

/-- REPEAT of an entry in its last program, one in progress counted. -/
def LogEntry.lastProg (e : LogEntry) : Option Nat := if e.flying.isSome then e.flying else e.prog

/-- A record closes: it waits for a program if its REPEAT has changed since its last one (R334, R341). -/
def LogEntry.close (e : LogEntry) : LogEntry :=
  if e.r.isOpen then
    { e with r := { e.r with isOpen := false }, waiting := e.waiting || e.lastProg != some e.r.rep }
  else e

/-- The open time of an entry has passed at a time. -/
def LogEntry.due (now : Nat) (e : LogEntry) : Bool := e.r.isOpen && e.since + e.openMs * 10 ^ 6 ≤ now

/-- The entries whose open time has passed close (R334). -/
def closeDue (now : Nat) (es : List LogEntry) : List LogEntry :=
  es.map fun e => if e.due now then e.close else e

/-- The ninth newest entry closes: eight newer records exist (R334). -/
def closeNinth (es : List LogEntry) : List LogEntry :=
  if 9 ≤ es.length then es.modify (es.length - 9) LogEntry.close else es

/-- An identical event counted in an open record, its CRC computed anew. -/
def LogEntry.again (e : LogEntry) : LogEntry := { e with r := { e.r with rep := min 65535 (e.r.rep + 1) }.sealed }

/-- The first open entry that an event collapses into, counted; none where there is none. -/
def collapse (r : Rec) : List LogEntry → Option (List LogEntry)
  | [] => none
  | e :: es =>
    if e.r.isOpen && e.r.sameEvent r then some (e.again :: es)
    else (collapse r es).map (e :: ·)

/-! ## Flash programs (R340, R341) -/

/-- Record slots of a page (R340). -/
def pageSlots (s : State) : Nat := s.flash.pageBytes / 32

/-- The block that an unlisted number stands for: erased. -/
def freeBlock (s : State) : FBlock :=
  { state := 0, factoryBad := false, erases := s.flash.freeErases, blockSeq := 0, logId := 0, refresh := false,
    spare := 0xFF, head := [], pages := [] }

/-- A block of the device. -/
def State.block (s : State) (b : Nat) : FBlock := lookD (freeBlock s) s.flash.blocks b

/-- A block of the device set. -/
def State.setBlock (s : State) (b : Nat) (v : FBlock) : State :=
  { s with flash := { s.flash with blocks := putD (freeBlock s) s.flash.blocks b v } }

/-- An erased block: every byte reads 0xFF. -/
def erased (s : State) (b : FBlock) : FBlock := { freeBlock s with erases := min (2 ^ 24 - 1) (b.erases + 1) }

/-- The place of a BLOCK_SEQ in the opening order, which runs modulo 2^32 up to the next one. -/
def openOrder (s : State) (q : Nat) : Nat := (q + 2 ^ 32 - s.flash.nextBlockSeq % 2 ^ 32) % 2 ^ 32

/-- The blocks of the current log in BLOCK_SEQ order, by number. -/
def logBlocks (s : State) : List Nat :=
  (sortBy (fun e => openOrder s e.2.blockSeq)
    (s.flash.blocks.filter fun e => e.2.state == 1 && e.2.logId == s.log.logId)).map (·.1)

/-- The tail block of the log, if it has room for a page (R341). -/
def tailBlock (s : State) : Option Nat :=
  match (s.flash.blocks.filter fun e =>
      e.2.state == 1 && e.2.logId == s.log.logId && (e.2.blockSeq + 1) % 2 ^ 32 == s.flash.nextBlockSeq) with
  | [] => none
  | e :: _ => if e.2.pages.length < 63 then some e.1 else none

/-- The FREE block with the least ERASES, ties to the lower number (R341). -/
def leastFree (s : State) : Option Nat :=
  let listed := (s.flash.blocks.filter fun e => e.2.state == 0).map (·.1)
  let fresh := ((List.range (s.flash.blocks.length + 1)).filter fun b =>
    b < s.flash.nblocks && !(s.flash.blocks.any fun e => e.1 == b)).take 1
  minBy (fun b => (s.block b).erases * 2 ^ 20 + b) (listed ++ fresh)

/-- A new block opened at the tail: its header is programmed (R341). -/
def openBlock (s : State) : Option (Nat × State) :=
  match leastFree s with
  | none => none
  | some b =>
    let x := s.block b
    let q := s.flash.nextBlockSeq
    let t := s.setBlock b { x with
      state := 1, blockSeq := q, logId := s.log.logId, head := blockHeader s.log.logId q x.erases, pages := [],
      refresh := false }
    some (b, { t with flash := { t.flash with nextBlockSeq := (q + 1) % 2 ^ 32 } })

/-- Records are programmed: the log is available, the flash is READY, no program is in progress, and no clear waits. -/
def mayProgram (s : State) : Bool :=
  s.sys.logReady && s.flash.state == 1 && s.flash.prog.isNone && (s.log.clears.isEmpty || s.log.cleared)

/-- A page program starts where it may and a record waits: one page carries the records that wait, as many as it has slots
(R341). -/
def startProgram (s : State) : State :=
  let ws := (s.log.recs.filter (·.waiting)).take (pageSlots s)
  if !mayProgram s || ws.isEmpty then s
  else
    let place := match tailBlock s with
      | some b => some (b, s)
      | none => openBlock s
    match place with
    | none => s
    | some (b, t) =>
      let seqs := ws.map (·.r.seq)
      let sent (e : LogEntry) : LogEntry :=
        if seqs.contains e.r.seq then { e with waiting := false, flying := some e.r.rep } else e
      { t with flash := { t.flash with prog := some (b, ws.map (·.r)) },
               log := { t.log with recs := t.log.recs.map sent } }

/-- An entry whose program has been cut off waits again. -/
def LogEntry.cut (e : LogEntry) : LogEntry :=
  if e.flying.isSome then { e with flying := none, waiting := true } else e

/-- The program in progress is cut off: its page is used up, and its records wait again (R341). DEDUCED, log entry 81. -/
def cutProgram (s : State) : State :=
  match s.flash.prog with
  | none => s
  | some (b, _) =>
    let x := s.block b
    let s := s.setBlock b { x with pages := x.pages ++ [{ readable := false, main := [] }] }
    { s with flash := { s.flash with prog := none }, log := { s.log with recs := s.log.recs.map LogEntry.cut } }

/-! ## Writing -/

/-- One event on PF3 vector 1 (R335). -/
def notifyRec (s : State) : State := notify (vecIdx 3 1) s

/-- A record put into the store with the next SEQ. -/
def storeRec (e : LogEntry) (s : State) : State :=
  let q := seqNext s.log.lastSeq
  let r := { e.r with seq := q }.sealed
  let es := closeNinth (s.log.recs ++ [{ e with r }])
  { s with log := { s.log with
      recs := es, lastSeq := q, firstSeq := if s.log.recs.isEmpty then q else s.log.firstSeq } }

/-- The notifications of a record written: NOTIFY_EACH (Table ER-4), 50 % and 90 % of 65,536 (R335).
DEDUCED, log entry 27. -/
def storeNotes (s : State) : State :=
  let n := s.log.recs.length
  let s := whenever (s.on F.recCfg_NOTIFY_EACH 0) notifyRec s
  whenever (n == 32768 || n == 58983) notifyRec s

/-- A record is written, or the log becomes full (R335). -/
def writeEntry (e : LogEntry) (s : State) : State :=
  if s.log.full then s.inc F.recStatus_LOST_EVENTS 0
  else if s.log.recs.length = 65535 then
    let t := storeNotes (storeRec (newEntry s (newRec s 0x03 0 false false 0 0)) s)
    let t := { t with log := { t.log with full := true, recs := t.log.recs.map LogEntry.close } }
    notifyRec (t.inc F.recStatus_LOST_EVENTS 0)
  else storeNotes (storeRec e s)

/-- The hold takes another event: before ready it takes 1,024 (R390), during a clear every one (R338).
DEDUCED, log entries 41, 42. -/
def holdTakes (s : State) (n : Nat) : Bool := !s.log.clears.isEmpty || n < 1024

/-- An event reaches the recorder (R332 to R335, R390). DEDUCED, log entry 30. -/
def recEvent (code cls : Nat) (inj realInj : Bool) (info0 info1 : Nat) (s : State) : State :=
  let r := newRec s code cls inj realInj info0 info1
  if s.log.holding then
    let held := closeDue s.frc s.log.held
    match collapse r held with
    | some es => { s with log := { s.log with held := es } }
    | none =>
      if holdTakes s held.length then
        { s with log := { s.log with held := closeNinth (held ++ [newEntry s r]) } }
      else { s with log := { s.log with held } }.inc F.recStatus_LOST_EVENTS 0
  else if s.log.full then s.inc F.recStatus_LOST_EVENTS 0
  else
    let recs := closeDue s.frc s.log.recs
    match collapse r recs with
    | some es => startProgram { s with log := { s.log with recs := es } }
    | none => startProgram (writeEntry (newEntry s r) { s with log := { s.log with recs } })

/-- An event without class and flags. DEDUCED, log entry 30. -/
def recPlain (code info0 info1 : Nat) (s : State) : State := recEvent code 0 false false info0 info1 s

/-- The held records are written in arrival order and the hold ends (R390). DEDUCED, log entry 42. -/
def flushHeld (s : State) : State :=
  let es := closeDue s.frc s.log.held
  let t := es.foldl (fun s e => writeEntry e s) s
  startProgram { t with log := { t.log with held := [], holding := false } }

/-- Every open record of the store closes (R334). -/
def closeAll (s : State) : State :=
  startProgram { s with log := { s.log with
    recs := s.log.recs.map LogEntry.close, held := s.log.held.map LogEntry.close } }

/-- RECORD_CLOSE of a record whose open time has passed (R334). -/
def closeSeq (seq : Nat) (s : State) : State :=
  startProgram { s with log := { s.log with
    recs := s.log.recs.map fun e => if e.r.seq == seq && e.due s.frc then e.close else e } }

/-! ## Clear (R338) -/

/-- Steps 2 to 5 of a clear, the program in progress having ended; the events that arrived during it follow.
DEDUCED, log entry 41. -/
def clearLog (s : State) : State :=
  let n := s.log.recs.length
  let prev := s.log.logId
  let log := { s.log with recs := [], logId := (prev + 1) % 2 ^ 32, full := false }
  let t := { s with log }
  flushHeld (writeEntry (newEntry t (newRec t 0x02 0 false false n prev)) t)

/-- The blocks of earlier logs are erased, where the flash is READY (R338, R342, Table ER-6). -/
def eraseOld (s : State) : State :=
  if s.flash.state != 1 then s
  else { s with flash := { s.flash with blocks := s.flash.blocks.map fun e =>
      if (e.2.state == 1 && e.2.logId != s.log.logId) || e.2.state == 2 then (e.1, erased s e.2) else e } }

/-! ## Reading -/

/-- Every record is in flash in its present form (Table ER-5 FLUSHED). -/
def flushed (s : State) : Bool :=
  s.flash.state == 1 && s.log.recs.all fun e => e.prog == some e.r.rep && !e.waiting

/-- N records of the log from a SEQ on (R336); none where the SEQ lies outside the log. -/
def readLog (first count : Nat) (s : State) : Option (List Rec) :=
  match s.log.recs.dropWhile fun e => e.r.seq != first with
  | [] => none
  | es => some ((es.take count).map (·.r))

end Sys2Proof.Machine
end

