-- ==== Sys2Proof/Machine/Faults.lean ====
section
/-! DEFINITION. Machine/Faults.lean: fault sources and their raises, the escalation windows, the checkers and their
injection, fatal faults (chapter 15). What an escalation does to a unit is in Machine/Escalate.lean. -/

namespace Sys2Proof.Machine

open Sys2Proof

/-! ## Sources (Table FA-4) -/

/-- The class of a source as a record's CLASS code: 1 C, 2 D, 3 F. -/
def srcClass (src : Nat) : Nat :=
  if [0x01, 0x10].contains src then 1 else if [0x06, 0x12, 0x14].contains src then 3 else 2

/-- The actions a source admits: 0 ISOLATE, 1 RESET, 2 FATAL, 3 REPORT (Table FA-4). -/
def srcActions (src : Nat) : List Nat :=
  match src with
  | 0x01 | 0x10 => [3]
  | 0x02 | 0x03 | 0x07 => [0, 1, 2, 3]
  | 0x04 | 0x05 | 0x0F | 0x11 => [1, 2, 3]
  | 0x0A | 0x0B | 0x0D => [0, 2, 3]
  | 0x06 | 0x12 | 0x14 => [2]
  | _ => [2, 3]

/-- An instance: a unit code and a number in a checker ID's format (R320). -/
def instOf (unit num : Nat) : Nat := unit * 2 ^ 24 + num

/-! ## Fatal faults (R329) -/

/-- EV_RESET (Table ER-3). -/
def writeReset (s : State) : State :=
  writeEntry (newEntry s (newRec s 0x01 0 false false (b2n s.sys.byCommand) s.log.source)) s

/-- EV_FATAL of the fault that FATAL_INFO holds. -/
def fatalEntry (s : State) : LogEntry :=
  newEntry s (newRec s 0x12 3 false false (s.get F.fatalInfo_SOURCE 0) (s.get F.fatalInfo_INST 0))

/-- The records of a fatal fault declared before ready, once the log is available: EV_RESET, the held records, EV_FATAL with
the time-stamp of the fault (R390). -/
def flushFatal (s : State) : State :=
  let t := flushHeld (writeReset s)
  startProgram (writeEntry (t.log.fatal.getD (fatalEntry t)) { t with log := { t.log with fatal := none } })

/-- µs since RESET_N deasserted: the FRC starts at 0 there (R233, Table SU-1). -/
def elapsedNow (s : State) : Nat := s.frc / 1000 % 2 ^ 32

/-- A fatal fault is declared, once. -/
def declareFatal (src inst : Nat) (s : State) : State :=
  if s.flt.fatal then s
  else
    let early := s.sys.phase < 4
    let s := s.puts 0 [(F.fatalInfo_FATAL, 1), (F.fatalInfo_SOURCE, src), (F.fatalInfo_INST, inst)]
    let s := { s with
      flt := { s.flt with fatal := true },
      sys := { s.sys with
        faultN := true, phase := 5, elapsed := some (s.sys.elapsed.getD (elapsedNow s)) } }
    let s := closeAll s
    if early then
      let s := { s with log := { s.log with fatal := some (fatalEntry s) } }
      if s.sys.logReady then flushFatal s else s
    else recEvent 0x12 3 false false src inst s

/-! ## Raises (R322, R323) -/

/-- How an evaluation or a condition is classed (R328). -/
inductive RaiseKind where
  | plain | inj | realInj
  deriving DecidableEq, Repr

/-- The escalation window of a source stops and its list empties. -/
def stopTimer (src : Nat) (s : State) : State :=
  let s := s.puts src [(F.srcStatus_PENDING, 0), (F.srcStatus_NPEND, 0)]
  { s with flt := { s.flt with timers := dropKey s.flt.timers src, insts := dropKey s.flt.insts src } }

/-- The escalation of a source (R325): its window ends, ESCALATED, EV_FAULT_ESCALATE, the event of PF3 vector 0; a FATAL
action is taken, an ISOLATE or RESET is due. DEDUCED, log entry 31. -/
def escalateNow (src : Nat) (s : State) : State :=
  let is := lookD [] s.flt.insts src
  let act := s.get F.srcCfg_ACTION src
  let s := (stopTimer src s).put F.srcStatus_ESCALATED src 1
  let s := recPlain 0x11 (src * 2 ^ 24 + act * 2 ^ 22 + is.length % 16 * 2 ^ 16) (is.headD 0) s
  let s := notify (vecIdx 3 0) s
  if act == 2 then declareFatal src (is.headD 0) s
  else { s with flt := { s.flt with due := s.flt.due ++ [⟨src, act, is⟩] } }

/-- The escalation part of a raise of a class D source (R323). A ninth instance escalates the source at once. -/
def escalateRaise (src inst : Nat) (s : State) : State :=
  if srcClass src != 2 || s.get F.srcCfg_ACTION src == 3 then s
  else
    let s := if s.on F.srcStatus_PENDING src then s
      else
        let t := s.put F.srcStatus_PENDING src 1
        { t with flt := { t.flt with
            timers := insKey src (s.frc + s.get F.srcCfg_WINDOW src * 1000) t.flt.timers,
            insts := insKey src [] t.flt.insts } }
    let is := lookD [] s.flt.insts src
    if is.contains inst then s
    else
      let is := is ++ [inst]
      let s := s.put F.srcStatus_NPEND src (min 8 is.length)
      let s := { s with flt := { s.flt with insts := insKey src is s.flt.insts } }
      whenever (9 ≤ is.length) (escalateNow src) s

/-- A raise of a source (R322): its status, its record (its own where another chapter gives it one), the notification, the
escalation, and the fatal fault of a class F source. -/
def raise (src inst : Nat) (syn : Option Nat) (kind : RaiseKind) (own : Option (Nat × Nat × Nat)) (s : State) :
    State :=
  let was := s.on F.srcStatus_STICKY src
  let s := (s.puts src [(F.srcStatus_STICKY, 1), (F.srcStatus_LAST_INST, inst)]).inc F.srcStatus_COUNT src
  let s := match syn with
    | some y => s.put F.srcStatus_LAST_SYNDROME src y
    | none => s
  let s := match kind with
    | .plain => s
    | .inj => s.put F.srcStatus_INJ_SEEN src 1
    | .realInj => s.put F.srcStatus_REAL_INJ src 1
  let s := match own with
    | some (code, i0, i1) => recPlain code i0 i1 s
    | none => recEvent 0x10 (srcClass src) (kind != .plain) (kind == .realInj)
        (src * 2 ^ 24 + (syn.getD 0) * 2 ^ 16) inst s
  let s := whenever (!was && s.on F.srcCfg_NOTIFY src) (notify (vecIdx 3 0)) s
  let s := escalateRaise src inst s
  if srcClass src == 3 then declareFatal src inst s else s

/-- A raise without a syndrome and with the EV_FAULT record. -/
def raisePlain (src inst : Nat) (s : State) : State := raise src inst none .plain none s

/-- The condition of a level source begins to hold for an instance (R320). A window left from before LIVE cleared has
stopped under R323, so the raise starts a new one. -/
def raiseLevel (src inst : Nat) (own : Option (Nat × Nat × Nat)) (s : State) : State :=
  if s.flt.levels.contains (src, inst) then s
  else
    let live := s.on F.srcStatus_LIVE src
    let s := if !live && s.on F.srcCfg_TRANSIENT_OK src && s.on F.srcStatus_PENDING src then stopTimer src s else s
    let s := { s with flt := { s.flt with levels := s.flt.levels ++ [(src, inst)] } }
    raise src inst none .plain own (s.put F.srcStatus_LIVE src 1)

/-- The condition of a level source ceases for an instance. -/
def clearLevel (src inst : Nat) (s : State) : State :=
  let ls := s.flt.levels.filter (· != (src, inst))
  let s := { s with flt := { s.flt with levels := ls } }
  if ls.any (·.1 == src) then s else s.put F.srcStatus_LIVE src 0

/-! ## Checkers (R318, R319) -/


/-- The uncorrectable source of a checker (Table FA-2). -/
def chkSource (chk : Nat) : Nat :=
  match chk / 2 ^ 24 with
  | 0x04 => 0x02
  | 0x05 | 0x06 | 0x07 => 0x03
  | 0x0A => 0x04
  | 0x10 => 0x06
  | _ => 0x05

/-- The checker that covers an object's words (Table FA-2); none where the table covers none of them. -/
def chkOf (c : Cls) (i : Nat) : Option Nat :=
  match c with
  | .portStats => some (instOf 0x01 (i / 128 / 8))
  | .statsHalf => some (instOf 0x01 (i / 8))
  | .emSlot => some (instOf 0x05 (i / 4 % 1024))
  | .emOvf => some (instOf 0x05 1024)
  | .hitWord => some (instOf 0x05 1025)
  | .lpmWord => some (instOf 0x06 (i / 786432 * 256 + i % 786432 % 256))
  | .ruleKey | .ruleMask | .ruleCtrl => some (instOf 0x07 (i / 8192))
  | .lookupPlan => some (instOf 0x07 16)
  | .action => some (instOf 0x08 0)
  | .nextHop | .group | .member => some (instOf 0x08 1)
  | .tplCtrl | .tplData => some (instOf 0x08 2)
  | .mirror => some (instOf 0x08 3)
  | .versionCfg | .versionStatus | .slot => some (instOf 0x09 0)
  | .reqQuota | .reqStatus => some (instOf 0x0A 258)
  | .portSched => some (instOf 0x0B i)
  | .classCfg => some (instOf 0x0B (i / 8))
  | .queueCfg => some (instOf 0x0B (i / 64))
  | .shaper => some (instOf 0x0B 1032)
  | .policer | .polState => some (instOf 0x0B 1033)
  | .queueStats | .queueHist => some (instOf 0x0B 1034)
  | .counter => some (instOf 0x0C 0)
  | .dropReason | .dropPort => some (instOf 0x0C 1)
  | .timeCfg | .tod | .todSet | .servoIn | .timeStatus | .portTs | .tsFifo | .tout | .pps | .flockTime =>
    some (instOf 0x0D 0)
  | .conn => some (instOf 0x0E (i / 256))
  | .faultCfg | .srcCfg | .srcStatus | .chkStatus | .inject | .faultSummary | .fatalInfo => some (instOf 0x10 0)
  | .recEntry => some (instOf 0x11 0)
  | .context => some (instOf 0x12 i)
  | .perfCnt => some (instOf 0x13 0)
  | .flashCfg | .flashStatus | .flashBlock => some (instOf 0x14 0)
  | .identStatus | .identKey | .roleCfg | .manifest | .memberDev | .route | .collect => some (instOf 0x15 0)
  | _ => none

/-- The weight of a syndrome. -/
def weight8 (x : Nat) : Nat := ((List.range 8).filter (bit x ·)).length

/-- The reference of a stored 64-bit word: its checker and its place under it. -/
def wordRef (chk place : Nat) : Nat := chk * 2 ^ 64 + place

/-- The word address within a checker that CHK_STATUS shows: bucket words of an EM bank count row by row (the example of
chapter 15); the manual states no other order. -/
def wordAddr (chk place : Nat) : Nat :=
  if chk / 2 ^ 24 == 0x05 && chk % 2 ^ 24 < 1024 then place % 2 ^ 24 else (Config.wordAddr (wordRef chk place)).toNat

/-- The injection slot armed on a checker (R327). -/
def injSlot (chk : Nat) (s : State) : Option Nat :=
  (List.range 4).find? fun i => s.on F.inject_ARMED i && s.get F.inject_CHECKER i == chk

/-- One inverted evaluation counted; at LEFT 0 the slot frees itself (R327). -/
def injUse (i : Nat) (s : State) : State :=
  let n := s.get F.inject_LEFT i
  if n ≤ 1 then s.setObj .inject i 0 else s.put F.inject_LEFT i (n - 1)

/-- One checker evaluation of a stored word (R319, R328): the state after, and whether the word is uncorrectable. -/
def evalWord (chk place : Nat) (s : State) : State × Bool :=
  let syn0 := lookD 0 s.flt.upset (wordRef chk place)
  let slot := injSlot chk s
  let s := match slot with
    | some i => injUse i s
    | none => s
  let syn := if slot.isSome then syn0 ^^^ 255 else syn0
  let s := if syn == 0 then s
    else s.puts chk [(F.chkStatus_SYNDROME, syn), (F.chkStatus_ADDR, wordAddr chk place)]
  if slot.isSome then
    if syn == 255 then
      let full := s.on F.faultCfg_INJ_FULL 0
      let s := whenever full (·.inc F.chkStatus_UE chk) s
      (raise (chkSource chk) chk (some syn) .inj none s, full)
    else (raise (chkSource chk) chk (some syn) .realInj none (s.inc F.chkStatus_UE chk), true)
  else if syn == 0 then (s, false)
  else if weight8 syn % 2 == 1 then
    let s := { s with flt := { s.flt with upset := dropKey s.flt.upset (wordRef chk place) } }
    (raise 0x01 chk (some syn) .plain none (s.inc F.chkStatus_CE chk), false)
  else (raise (chkSource chk) chk (some syn) .plain none (s.inc F.chkStatus_UE chk), true)

/-- The syndrome of the last word with a real error that an injection slot inverts, among words evaluated in order.
DEDUCED, log entry 32. -/
def realInjected (chk : Nat) (places : List Nat) (s : State) : Option Nat :=
  match injSlot chk s with
  | none => none
  | some i =>
    ((places.take (s.get F.inject_LEFT i)).map fun a => lookD 0 s.flt.upset (wordRef chk a)).reverse.findSome? fun y =>
      if y == 0 then none else some (y ^^^ 255)

/-- The evaluations of several words of one checker by one access, in word order. Their raises come together, and
LAST_SYNDROME then shows a REAL+INJ one before an INJ one, as in the example of chapter 15. DEDUCED, log entry 32. -/
def evalWords (chk : Nat) (places : List Nat) (s : State) : State × Bool :=
  let r := places.foldl (fun (p : State × Bool) a => let q := evalWord chk a p.1; (q.1, p.2 || q.2)) (s, false)
  match realInjected chk places s with
  | some y => (r.1.put F.srcStatus_LAST_SYNDROME (chkSource chk) y, r.2)
  | none => r

/-- The places of an object's words under its checker. An EM slot is read with its whole bucket (R122).
DEDUCED, log entry 33. -/
def placesOf (c : Cls) (i : Nat) : List Nat :=
  match c with
  | .emSlot => (List.range 8).map fun w => i / 4 / 1024 * 8 + w
  | _ => (List.range (c.row.width / 64)).map fun w => oid c i * 16 + w

/-- An access to an object evaluates each of its words. DEDUCED, log entry 33. -/
def evalObj (c : Cls) (i : Nat) (s : State) : State × Bool :=
  match chkOf c i with
  | none => (s, false)
  | some k => evalWords k (placesOf c i) s

/-- An access to several objects of a class, in order. -/
def evalObjs (c : Cls) (is : List Nat) (s : State) : State × Bool :=
  is.foldl (fun r i => let q := evalObj c i r.1; (q.1, r.2 || q.2)) (s, false)

/-- Words of a checker are written: they store fresh check bits, and no other word does (R319). -/
def freshWords (k : Nat) (places : List Nat) (s : State) : State :=
  { s with flt := { s.flt with upset := places.foldl (fun u p => dropKey u (wordRef k p)) s.flt.upset } }

/-- A write of an object stores fresh check bits. -/
def clearUpset (c : Cls) (i : Nat) (s : State) : State :=
  match chkOf c i with
  | none => s
  | some k => freshWords k (placesOf c i) s

/-- The words of n EM slots from slot i of a bucket on (R122). -/
def slotWords (i n : Nat) : List Nat := (List.range (2 * n)).map fun w => i / 4 / 1024 * 8 + i % 4 * 2 + w

/-- A hop of a frame's bytes evaluates one word for every eight bytes, each at its offset from a base. -/
def evalHop (chk base nbytes : Nat) (s : State) : State × Bool :=
  evalWords chk (rangeFrom base (ceilDiv nbytes 8)) s

/-- An instance is isolated (R325). -/
def State.isolated (s : State) (inst : Nat) : Bool := s.flt.isolated.contains inst

/-! ## FAULT_ACK and FAULT_INJECT (R324, R327) -/

/-- FAULT_ACK: none for NOT_FOUND. -/
def faultAckDo (src : Nat) (s : State) : Option State :=
  if s.on F.srcStatus_PENDING src then some (stopTimer src s) else none

/-- What FAULT_INJECT answers: the state, or BUSY (false) or BAD_PARAM (true). -/
def faultInjectDo (chk n : Nat) (s : State) : Except Bool State :=
  let slots := List.range 4
  match slots.find? fun i => s.on F.inject_ARMED i && s.get F.inject_CHECKER i == chk with
  | some i => .ok (if n == 0 then s.setObj .inject i 0 else s.put F.inject_LEFT i n)
  | none =>
    if !checkerOk chk || n == 0 then .error true
    else match slots.find? fun i => !s.on F.inject_ARMED i with
      | none => .error false
      | some i => .ok (s.puts i [(F.inject_CHECKER, chk), (F.inject_LEFT, n), (F.inject_ARMED, 1)])

end Sys2Proof.Machine
end

