-- ==== Sys2Proof/Machine/Lanes.lean ====
section
/-! DEFINITION. Machine/Lanes.lean: lane power and calibration, equalisation, PRBS, loopbacks, the flock-link block code
(chapter 2). -/

namespace Sys2Proof.Machine

open Sys2Proof

/-- What a lane holds after reset: it stands in L2. -/
def laneDefault : LaneSt :=
  { move := none, lagTx := 0, lagRx := 0, ovr := false, amSeen := false, good := 0, bad := 0, mark := none,
    prbsSince := 0 }

def State.lane (s : State) (l : Nat) : LaneSt := lookD laneDefault s.lanes l

def State.setLane (s : State) (l : Nat) (v : LaneSt) : State := { s with lanes := putD laneDefault s.lanes l v }

/-- MODE of the octet of a lane. -/
def laneMode (l : Nat) (s : State) : Nat := s.get F.octetCfg_MODE (l / 8)

/-- The lane rate in kb/s (Table LN-3). -/
def rateKbps (rate : Nat) : Nat :=
  match rate with
  | 1 => 10312500
  | 2 => 25781250
  | 3 => 53125000
  | 4 => 106250000
  | 5 => 212500000
  | _ => 0

/-- A rate carries PAM4 symbols, and so takes PLL-P (Table LN-3). -/
def ratePam (rate : Nat) : Bool := 3 ≤ rate

/-- Instances of the lane faults (R320, R56). -/
def laneInst (l : Nat) : Nat := instOf 0x02 l

/-! ## Power states (R38, R54 to R56) -/

/-- The power state a lane has to be in: L2 while its rate or its octet is off or escalation holds it, else REQ. -/
def laneTarget (l : Nat) (s : State) : Nat :=
  if s.get F.laneCfg_RATE l == 0 || laneMode l s == 0 || s.isolated (laneInst l) then 2
  else s.get F.lanePower_REQ l

/-- A lane runs: it stands in L0 and no transition is under way (R38, R54). -/
def laneUp (l : Nat) (s : State) : Bool := s.get F.lanePower_STATE l == 0 && (s.lane l).move.isNone

/-- The lane's transmitter is electrically idle: in reset, after a fatal fault, in L1 and L2, and from the start of a
transition, a recalibration included (R38, R329, R365). -/
def txIdle (l : Nat) (s : State) : Bool := s.sys.inReset || s.flt.fatal || !laneUp l s

/-! ## PRBS (R50 to R52) -/

/-- Bits checked since a time, at a rate code; a lane that does not run receives none (R54). DESIGN CHOICE, log
entry 22. -/
def prbsBits (rate l : Nat) (s : State) : Nat :=
  if laneUp l s then (s.frc - (s.lane l).prbsSince) * rateKbps rate / 10 ^ 6 else 0

/-- A count of PRBS_COUNT rises by n and saturates, with its sticky mark. -/
def prbsAdd (f sat : Fld) (l n : Nat) (s : State) : State :=
  let x := s.get f l + n
  let s := s.addSat f l n
  if f.max ≤ x then s.put sat l 1 else s

/-- The bits counted up to now are added to BIT_COUNT (R51). DESIGN CHOICE, log entry 22. -/
def prbsBitsUp (rate l : Nat) (s : State) : State :=
  let n := prbsBits rate l s
  (prbsAdd F.prbsCount_BIT_COUNT F.prbsCount_BIT_SAT l n s).setLane l { s.lane l with prbsSince := s.frc }

/-- The most errors among n bits that leave the checker locked: 512 in every 4,096 (R51). -/
def prbsErrMost (n : Nat) : Nat := min n (512 * ceilDiv n 4096)

/-- A locked checker has counted up to now: the bits, and among them errors of the line, whose number no row carries, a free
value (R51). DESIGN CHOICE, log entry 22. -/
def prbsCountUpAt (rate l : Nat) (s : State) : State :=
  if s.on F.prbsCount_LOCK l && prbsBits rate l s != 0 then
    let most := prbsErrMost (prbsBits rate l s)
    let (v, s) := s.draw
    prbsAdd F.prbsCount_ERR_COUNT F.prbsCount_ERR_SAT l (v % (most + 1)) (prbsBitsUp rate l s)
  else s

/-- The same at the lane's live rate. -/
def prbsCountUp (l : Nat) (s : State) : State := prbsCountUpAt (s.get F.laneCfg_RATE l) l s

/-- PRBS_CLEAR: the four counts together, between two checked bits (R52). -/
def prbsClearDo (l : Nat) (s : State) : State :=
  let s := s.puts l [(F.prbsCount_BIT_COUNT, 0), (F.prbsCount_ERR_COUNT, 0), (F.prbsCount_BIT_SAT, 0),
    (F.prbsCount_ERR_SAT, 0)]
  s.setLane l { s.lane l with prbsSince := s.frc }

/-- PRBS_LOCK: 1,024 consecutive error-free bits (R51). -/
def prbsLockDo (l : Nat) (s : State) : State :=
  if s.get F.prbsCtrl_RX_PATTERN l ≠ 0 && !s.on F.prbsCount_LOCK l then
    (s.put F.prbsCount_LOCK l 1).setLane l { s.lane l with prbsSince := s.frc }
  else s

/-- PRBS_LOCK_LOSS: errs errors counted while locked since the counts were last brought up, more than 512 of them in 4,096
bits (R51). -/
def prbsLossDo (l errs : Nat) (s : State) : State :=
  if s.on F.prbsCount_LOCK l && 512 < errs then
    (prbsAdd F.prbsCount_ERR_COUNT F.prbsCount_ERR_SAT l errs (prbsBitsUp (s.get F.laneCfg_RATE l) l s)).put
      F.prbsCount_LOCK l 0
  else s

/-- A write of PRBS_CTRL: a new checker pattern seeds again, 0 turns the checker off, CLEAR zeroes the counts. -/
def prbsCtrlDo (l : Nat) (v : ObjVal) (s : State) : State :=
  let rx := fldGet v F.prbsCtrl_RX_PATTERN
  let s := if rx ≠ s.get F.prbsCtrl_RX_PATTERN l then (prbsCountUp l s).put F.prbsCount_LOCK l 0 else s
  let s := s.puts l [(F.prbsCtrl_TX_PATTERN, fldGet v F.prbsCtrl_TX_PATTERN), (F.prbsCtrl_RX_PATTERN, rx)]
  if fldGet v F.prbsCtrl_CLEAR == 1 then prbsClearDo l s else s

/-- What a write of PRBS_CTRL may not hold (Table LN-8). -/
def prbsCtrlBad (v : ObjVal) : Bool := 6 < fldGet v F.prbsCtrl_TX_PATTERN || 6 < fldGet v F.prbsCtrl_RX_PATTERN

/-! ## What the lanes of a port or of an octet send and receive (R50, R53, R54) -/

/-- Local transmit data leaves on every one of some lanes: each transmits, sends no pattern and no far-end data. -/
def sendsLine (ls : List Nat) (s : State) : Bool :=
  ls.all fun l => !txIdle l s && s.get F.prbsCtrl_TX_PATTERN l == 0 && s.get F.laneCfg_LOOPBACK l != 3

/-- The receive data of some lanes is their own transmit data: a near-end loopback on each. -/
def hearsLoop (ls : List Nat) (s : State) : Bool :=
  sendsLine ls s && ls.all fun l => s.get F.laneCfg_LOOPBACK l == 1 || s.get F.laneCfg_LOOPBACK l == 2

/-- The receive data of some lanes is the line's. -/
def hearsLine (ls : List Nat) (s : State) : Bool :=
  ls.all fun l => laneUp l s && (s.get F.laneCfg_LOOPBACK l == 0 || s.get F.laneCfg_LOOPBACK l == 3)

/-- Retimed receive data leaves on every one of some lanes: a far-end loopback on each, and no pattern. -/
def sendsFar (ls : List Nat) (s : State) : Bool :=
  ls.all fun l => !txIdle l s && s.get F.prbsCtrl_TX_PATTERN l == 0 && s.get F.laneCfg_LOOPBACK l == 3

/-! ## The condition of an octet's lanes (Table FL-7) -/

/-- What a framer holds after reset. -/
def linkDefault : LinkSt :=
  { txMfc := 0, announce := false, txLast := ⟨[], []⟩, txBip := 0, txData := [], txCtrl := [], txTime := [], base := 0,
    accepted := 0, next := 0, lastOh := 0, cands := [], fawBad := 0, mfcBad := 0, mfcGood := 0, aisOn := 0, aisOff := 0,
    rdiOn := 0, rdiOff := 0, due := [], reported := [], frameSince := 0, lanesGood := false, lanesSince := 0, votes := [],
    ones := [], loop := [], loopCtrl := [], loopTime := [] }

def State.link (s : State) (o : Nat) : LinkSt := lookD linkDefault s.flock.links o

def State.setLink (s : State) (o : Nat) (v : LinkSt) : State :=
  { s with flock := { s.flock with links := putD linkDefault s.flock.links o v } }

/-- The lanes of an octet. -/
def octetLanes (o : Nat) : List Nat := rangeFrom (8 * o) 8

/-- Every lane of an octet has SIG_DET, CDR_LOCK and AM_LOCK, and DESKEW_FAIL is 0. -/
def lanesGood (o : Nat) (s : State) : Bool :=
  (octetLanes o).all fun k => s.on F.laneStatus_SIG_DET k && s.on F.laneStatus_CDR_LOCK k && s.on F.laneStatus_AM_LOCK k &&
    !s.on F.laneStatus_DESKEW_FAIL k

/-- The condition of an octet's lanes is watched: the FRC of its last change is kept. -/
def watchLanes (o : Nat) (s : State) : State :=
  if lanesGood o s == (s.link o).lanesGood then s
  else s.setLink o { s.link o with lanesGood := lanesGood o s, lanesSince := s.frc }

/-- The octet delivers blocks: its skew is 180 ns or less (R49). -/
def octetDelivers (o : Nat) (s : State) : Bool := (octetLanes o).all fun k => !s.on F.laneStatus_DESKEW_FAIL k

/-! ## Transitions -/

/-- A transition to a state begins; exit marks an L2 exit. The lane stops: it has no signal and no lock, and its markers
count afresh (R38, R49, R54); from an L2 exit its lags do too (DEDUCED, log entry 108). -/
def laneMove (l target : Nat) (exit : Bool) (s : State) : State :=
  let s := prbsCountUp l s
  let x := s.lane l
  let s := s.setLane l
    { x with move := some (target, s.frc, exit), good := 0, bad := 0, mark := none, amSeen := x.amSeen && !exit }
  watchLanes (l / 8) (s.puts l [(F.lanePower_MOVING, 1), (F.laneStatus_SIG_DET, 0), (F.laneStatus_CDR_LOCK, 0),
    (F.laneStatus_AM_LOCK, 0)])

/-- A lane that is not in transition moves to the state it has to be in. -/
def laneGo (l : Nat) (s : State) : State :=
  let st := s.get F.lanePower_STATE l
  let t := laneTarget l s
  if (s.lane l).move.isSome || t == st then s else laneMove l t (st == 2) s

/-- A REQ write that R54 refuses. -/
def powerReqBad (l req : Nat) (s : State) : Bool :=
  req == 3 || (req != 0 && s.get F.laneCfg_LOOPBACK l != 0)

/-- A write of REQ (R54): acknowledged at once; a transition in progress completes first. -/
def powerReqDo (l req : Nat) (s : State) : State :=
  if powerReqBad l req s then s else laneGo l (s.put F.lanePower_REQ l req)

/-- The equalisation of a lane adapts afresh: the values it reaches are analog (R40). DEDUCED, log entry 18. -/
def laneAdapt (l : Nat) (s : State) : State :=
  ((s.putFree F.laneRxeq_CTLE l).putFree F.laneRxeq_SNR l).putFree F.laneRxeq_EYE_MV l

/-- Link training runs on a lane: an Ethernet lane in L0 with TRAIN_EN 1 (R39). -/
def training (l : Nat) (s : State) : Bool :=
  laneMode l s == 1 && s.get F.lanePower_STATE l == 0 && s.on F.laneTxeq_TRAIN_EN l

/-- The taps of LANE_TXEQ (Table LN-4). -/
def tapFields : List Fld :=
  [F.laneTxeq_PRE3, F.laneTxeq_PRE2, F.laneTxeq_PRE1, F.laneTxeq_MAIN, F.laneTxeq_POST1]

/-- Training replaces the taps by the values it finds (R39), which are free. DEDUCED, log entry 18. -/
def trainTaps (l : Nat) (s : State) : State :=
  if training l s then tapFields.foldl (fun s f => s.putFree f l) s else s

/-- LANE_STATE_REACHED: a transition completes; a lane that reaches L0 has its signal and CDR lock, an L2 exit clears
CAL_FAIL (R55, R56) and adapts afresh unless ADAPT is 10 (R40), and training begins (R39). A newer REQ then starts its own
transition (R54). -/
def laneReachedDo (l : Nat) (s : State) : State :=
  match (s.lane l).move with
  | none => s
  | some (t, _, exit) =>
    let s := s.setLane l { s.lane l with move := none, prbsSince := s.frc }
    let s := s.puts l [(F.lanePower_STATE, t), (F.lanePower_MOVING, 0)]
    let s := if exit then
        let s := s.put F.lanePower_CAL_FAIL l 0
        if s.get F.laneRxeq_ADAPT l == 2 then s else laneAdapt l s
      else s
    let s := if t == 0 then
        trainTaps l (watchLanes (l / 8) (s.puts l [(F.laneStatus_SIG_DET, 1), (F.laneStatus_CDR_LOCK, 1)]))
      else s
    laneGo l s

/-- A lane's L2 exit fails: it returns to L2 (R56). -/
def laneFail (l : Nat) (s : State) : State :=
  let s := s.setLane l { s.lane l with move := none }
  let s := s.puts l [(F.lanePower_STATE, 2), (F.lanePower_MOVING, 0), (F.lanePower_CAL_FAIL, 1)]
  raisePlain 0x0A (laneInst l) s

/-- A lane is in an L2 exit. -/
def inExit (l : Nat) (s : State) : Bool :=
  match (s.lane l).move with
  | some (_, _, e) => e
  | none => false

/-- LANE_CAL_TIMEOUT: no CDR lock 60 µs after the exit began; with pll its PLL has not locked, and every lane of the octet
on that PLL fails its exit with it (R56). DEDUCED, log entry 40. -/
def laneCalTimeoutDo (l : Nat) (pll : Bool) (s : State) : State :=
  match (s.lane l).move with
  | some (_, t0, true) =>
    if t0 + 60000 ≤ s.frc then
      if pll then
        let pam := ratePam (s.get F.laneCfg_RATE l)
        let ls := (rangeFrom (l / 8 * 8) 8).filter fun k =>
          inExit k s && ratePam (s.get F.laneCfg_RATE k) == pam
        raisePlain 0x0B (instOf 0x02 (l / 8)) (ls.foldl (fun s k => laneFail k s) s)
      else laneFail l s
    else s
  | _ => s

/-- What a COMMIT of unit LANES does to a lane, from the settings before it: a change of RATE or MODE recalibrates it
(R38), its PRBS bits up to then counted at the rate before; a change of polarity, precoding or loopback alone needs nothing
more. -/
def laneCommitted (old : State) (l : Nat) (s : State) : State :=
  if old.get F.laneCfg_RATE l ≠ s.get F.laneCfg_RATE l || laneMode l old ≠ laneMode l s then
    let t := laneTarget l s
    let s := prbsCountUpAt (old.get F.laneCfg_RATE l) l s
    let s := if laneMode l s == 2 then s else s.put F.laneStatus_DESKEW_FAIL l 0
    if t == 2 then (if s.get F.lanePower_STATE l == 2 && (s.lane l).move.isNone then s else laneMove l 2 false s)
    else laneMove l t true s
  else s

/-! ## Equalisation (R39, R40) -/

/-- The taps of a LANE_TXEQ value: |PRE3| + |PRE2| + |PRE1| + MAIN + |POST1|. -/
def tapSum (v : ObjVal) : Nat :=
  (toSigned 6 (fldGet v F.laneTxeq_PRE3)).natAbs + (toSigned 6 (fldGet v F.laneTxeq_PRE2)).natAbs +
    (toSigned 6 (fldGet v F.laneTxeq_PRE1)).natAbs + fldGet v F.laneTxeq_MAIN +
    (toSigned 6 (fldGet v F.laneTxeq_POST1)).natAbs

/-- What a write of LANE_TXEQ meets: BAD_PARAM for taps out of range, BUSY for a tap write during training. A write that
leaves every tap as it reads, to change TRAIN_EN alone, is no tap write. -/
inductive TxeqAnswer where
  | fine | bad | busy
  deriving DecidableEq, Repr

/-- A value of LANE_TXEQ changes no tap. -/
def tapsKept (l : Nat) (v : ObjVal) (s : State) : Bool := tapFields.all fun f => fldGet v f == s.get f l

/-- The answer to a write of LANE_TXEQ (R39). DEDUCED, log entry 20. -/
def txeqAnswer (l : Nat) (v : ObjVal) (s : State) : TxeqAnswer :=
  if 63 < tapSum v then .bad
  else if training l s && !tapsKept l v s then .busy
  else .fine

/-- LANE_TXEQ_WRITE: an accepted write changes all taps together; one that sets TRAIN_EN starts training. DEDUCED, log
entry 20. -/
def txeqDo (l : Nat) (v : ObjVal) (s : State) : State :=
  if txeqAnswer l v s = .fine then
    let t := s.setObj .laneTxeq l (mergeBits (s.obj .laneTxeq l) v (accMask .laneTxeq [.RW]))
    if training l s then t else trainTaps l t
  else s

/-- LANE_RXEQ_ADAPT_WRITE: 11 restarts adaptation and reads back as 00 (R40). -/
def rxeqAdaptDo (l a : Nat) (s : State) : State :=
  if a == 3 then laneAdapt l (s.put F.laneRxeq_ADAPT l 0) else s.put F.laneRxeq_ADAPT l a

/-! ## Flock-link block code (R42 to R49) -/

/-- The fill symbols of a group with s stuff symbols at lag L (R46); no bit of them is held. DESIGN CHOICE, log entry 99. -/
def fillSymbols (lag s : Nat) : Nat := 64 - s - lag

/-- The lag after a group (R46). -/
def lagAfter (lag s : Nat) : Nat := lag + s - 64

/-- The receive signal of a running lane appears or goes, and its CDR lock with it (Table LN-11). DEDUCED, log entry
25. -/
def laneSignal (l : Nat) (signal : Bool) (s : State) : State :=
  watchLanes (l / 8) (s.puts l [(F.laneStatus_SIG_DET, b2n signal), (F.laneStatus_CDR_LOCK, b2n signal)])

/-- The transmit side of the end of a group: the lag of R46, the blocks replaced under R47. While the transmitter replaces
blocks it sends no stuff symbol, and each of the 1,024 blocks of the group counts. -/
def groupSent (l txStuff : Nat) (s : State) : State :=
  let x := s.lane l
  let tx := lagAfter x.lagTx (if x.ovr then 0 else txStuff)
  let ovr := if x.ovr then tx != 0 else 192 ≤ tx
  let s := if x.ovr then (s.addSat F.laneStatus_STUFF_OVR l 1024).put F.laneStatus_STUFF_OVR_S l 1 else s
  s.setLane l { x with lagTx := tx, ovr }

/-- The receive side of the end of a group (R45, R46, Table LN-11). -/
def groupReceived (l rxStuff viol hdrErr : Nat) (s : State) : State :=
  let s := s.setLane l { s.lane l with lagRx := lagAfter (s.lane l).lagRx rxStuff }
  let s := if viol ≠ 0 then (s.addSat F.laneStatus_STUFF_VIOL l viol).put F.laneStatus_STUFF_VIOL_S l 1 else s
  s.addSat F.laneStatus_HDR_ERR l hdrErr

/-- FLOCK_LANE_GROUP_END: a group of 1,024 blocks ends on a running flock lane (R45 to R47). A lane that sends a pattern or
far-end data sends no group of its own (R50, R53); one without a signal receives none. -/
def groupEndDo (l txStuff rxStuff viol hdrErr : Nat) (signal : Bool) (s : State) : State :=
  if laneMode l s ≠ 2 || !laneUp l s then s
  else
    let s := if sendsLine [l] s then groupSent l txStuff s else s
    let s := laneSignal l signal s
    if signal then groupReceived l rxStuff viol hdrErr s else s

/-- The skew of the eight lanes of an octet once all have the marker of one AM_SEQ: each lane's delay after the earliest,
and DESKEW_FAIL on all eight above 180 ns (R49). A delay that SKEW cannot hold shows as its greatest value. DESIGN CHOICE,
log entry 109. -/
def deskew (o : Nat) (s : State) : State :=
  let ls := octetLanes o
  match (ls.map fun l => (s.lane l).mark).head? with
  | some (some (seq, _)) =>
    if ls.all fun l => match (s.lane l).mark with
        | some (q, _) => q == seq
        | none => false
    then
      let ts := ls.map fun l => ((s.lane l).mark.getD (0, 0)).2
      let lo := ts.foldl min (ts.headD 0)
      let bad := ts.any fun t => 180 < t - lo
      ls.foldl (fun s l => s.puts l
        [(F.laneStatus_SKEW, min 255 (((s.lane l).mark.getD (0, 0)).2 - lo)), (F.laneStatus_DESKEW_FAIL, b2n bad)]) s
    else s
  | _ => s

/-- AM_MARKER_RECEIVE: on a running flock lane a marker is received at its place, with the correct pattern and POSITION
(good), or is missing or errored. Two good markers give AM_LOCK, four bad ones clear it (R49); the lags start at 0 when the
lane first reaches AM lock (R46). -/
def markerDo (l : Nat) (good : Bool) (seq arrival : Nat) (s : State) : State :=
  if laneMode l s ≠ 2 || !laneUp l s then s
  else
    let x := s.lane l
    if good then
      let gets := !s.on F.laneStatus_AM_LOCK l && 1 ≤ x.good
      let y := { x with good := x.good + 1, bad := 0, mark := some (seq % 65536, arrival) }
      let y := if gets && !x.amSeen then { y with lagTx := 0, lagRx := 0, ovr := false, amSeen := true } else y
      let s := s.setLane l y
      watchLanes (l / 8) (deskew (l / 8) (if gets then s.put F.laneStatus_AM_LOCK l 1 else s))
    else
      let s := s.setLane l { x with good := 0, bad := x.bad + 1 }
      if 4 ≤ x.bad + 1 then watchLanes (l / 8) (s.put F.laneStatus_AM_LOCK l 0) else s

end Sys2Proof.Machine
end

