-- ==== Sys2Proof/Machine/Parse.lean ====
section
/-! DEFINITION. Machine/Parse.lean: the probe vector, shape selection, field extraction, layer marks, length and checksum
checks, the predicted length (R93 to R107), and the COMMIT check of the parse configuration (R106, R108). -/

namespace Sys2Proof.Machine

open Sys2Proof

/-- The indices of a class's objects that the live store lists, rising. -/
def State.listed (s : State) (c : Cls) : List Nat :=
  s.live.filterMap fun e =>
    if oid c 0 ≤ e.1 && e.1 < oid c 0 + c.row.count then some (e.1 - oid c 0) else none

/-- A byte of a list, 0 past its end (R94). -/
def byteAt (bs : List Byte) (i : Nat) : Nat := (bs[i]?.getD 0).toNat

/-- Two bytes of a list, big-endian. -/
def be16 (bs : List Byte) (i : Nat) : Nat := byteAt bs i * 256 + byteAt bs (i + 1)

/-- The bytes of a frame's header window (R29): the first 256 bytes, or the whole frame. -/
def headerWindow (bs : List Byte) : List Byte := bs.take 256

/-- The header window as extractions and checks read it. The manual says for probes alone what lies past the end of a short
frame (R94); here it is open. DESIGN CHOICE, log entry 116. -/
def padWindow (bs : List Byte) : List Byte :=
  let w := headerWindow bs
  w ++ (rangeFrom w.length (256 - w.length)).map fun i => Config.pastEnd bs i

/-- The metadata words of Table PS-6. -/
structure Meta where
  inPort : Nat
  fromHost : Bool
  recirc : Bool
  pass : Nat
  deriving DecidableEq, Repr

def metaWord (m : Meta) (bs : List Byte) (w : Nat) : Nat :=
  let whole := bs.length ≤ 256
  match w with
  | 0 => m.inPort
  | 1 => b2n whole * 32768 + b2n m.fromHost * 16384 + b2n m.recirc * 8192 + m.pass % 4 * 2048 + min 256 bs.length
  | 2 => if whole then bs.length else 0
  | _ => 0

/-- The 16 bits that probe point i yields (R93). -/
def probe (m : Meta) (bs : List Byte) (s : State) (i : Nat) : Nat :=
  let o := s.get F.probePoint_OFFSET i
  if s.on F.probePoint_SRC i then metaWord m bs o else be16 (headerWindow bs) o

/-- The probe vector: probe point i fills PV[511 − 16i : 496 − 16i] (R93). -/
def probeVector (m : Meta) (bs : List Byte) (s : State) : BitVec 512 :=
  (List.range 32).foldl (fun v i => v ||| (BitVec.ofNat 512 (probe m bs s i) <<< (496 - 16 * i))) 0

/-- The 512 bits of four 128-bit words, word 0 highest (Table PS-8). -/
def selWords (c : Cls) (e : Nat) (s : State) : BitVec 512 :=
  (List.range 4).foldl (fun v w => v ||| ((s.obj c (e * 4 + w)).extractLsb' 0 128).zeroExtend 512 <<< (384 - 128 * w)) 0

/-- Selector entry e matches (R95). -/
def selMatch (pv : BitVec 512) (s : State) (e : Nat) : Bool :=
  s.on F.selCtrl_VALID e && (pv ^^^ selWords .selKey e s) &&& selWords .selMask e s == 0

/-- The shape chosen: that of the matching entry with the lowest index, or shape 0 (R95). -/
def selectShape (pv : BitVec 512) (s : State) : Nat :=
  match minBy id ((s.listed .selCtrl).filter (selMatch pv s)) with
  | some e => s.get F.selCtrl_SHAPE e
  | none => 0

/-- w bits of the window from bit start of byte off, the first bit most significant; bits past the end are 0 (R97). -/
def bitField (bs : List Byte) (off start w : Nat) : Nat :=
  let n := ceilDiv (start + w) 8
  bytesNat (slice bs off n) / 2 ^ (n * 8 - start - w) % 2 ^ w

/-- The field slots 0 to NFIELDS − 1 (R97). -/
def extractFields (shape : Nat) (win : List Byte) (s : State) : List Nat :=
  (List.range (s.get F.shapeCtrl_NFIELDS shape)).map fun f =>
    let i := shape * 48 + f
    bitField win (s.get F.shapeField_OFFSET i) (s.get F.shapeField_START i) (s.get F.shapeField_WIDTH i)

/-- The layer marks 0 to NLAYERS − 1: kind, offset, inside a tunnel (R98). -/
def extractLayers (shape : Nat) (s : State) : List (Nat × Nat × Bool) :=
  (List.range (s.get F.shapeCtrl_NLAYERS shape)).map fun l =>
    let i := shape * 12 + l
    (s.get F.shapeLayer_KIND i, s.get F.shapeLayer_OFFSET i, s.on F.shapeLayer_INNER i)

/-- The end E(k) of length check k (R99). -/
def lchkEnd (i : Nat) (win : List Byte) (s : State) : Int :=
  let o := s.get F.shapeLchk_FOFF i
  let v := match s.get F.shapeLchk_FWIDTH i with
    | 0 => byteAt win o / 16
    | 1 => byteAt win o % 16
    | 2 => byteAt win o
    | _ => be16 win o
  let scale := match s.get F.shapeLchk_SCALE i with
    | 0 => 1
    | 1 => 4
    | _ => 8
  (s.get F.shapeLchk_BASE i : Int) + ((v * scale : Nat) : Int) + toSigned 10 (s.get F.shapeLchk_ADD i)

/-- Length check k fails (R99). -/
def lchkFail (shape k : Nat) (bs : List Byte) (s : State) : Bool :=
  let win := padWindow bs
  let i := shape * 4 + k
  let e := lchkEnd i win s
  let short := e < (s.get F.shapeLchk_BASE i : Int)
  let whole := bs.length ≤ 256
  match s.get F.shapeLchk_MODE i with
  | 0 => false
  | 1 => short || (whole && e > (bs.length : Int) - 4)
  | 2 => short || (if whole then e ≠ (bs.length : Int) - 4 else e < 253)
  | 3 => short || e ≠ lchkEnd (shape * 4 + s.get F.shapeLchk_REF i) win s
  | 4 => short || e ≠ (s.get F.shapeLchk_CONST i : Int)
  | _ => short

/-- Checksum check k fails (R102); fails lists the length checks that failed. -/
def cchkFail (shape k : Nat) (bs : List Byte) (fails : List Bool) (s : State) : Bool :=
  let win := padWindow bs
  let i := shape * 4 + k
  let o := s.get F.shapeCchk_OFFSET i
  match s.get F.shapeCchk_MODE i with
  | 0 => false
  | 1 => inetSum (slice win o (s.get F.shapeCchk_LEN i)) != 0xFFFF
  | _ =>
    let r := s.get F.shapeCchk_REF i
    let j := shape * 4 + r
    let n := (lchkEnd j win s - (s.get F.shapeLchk_BASE j : Int)).toNat
    n % 2 == 1 || n == 0 || min 256 bs.length < o + n || s.get F.shapeCtrl_DEPTH shape < o + n ||
      fails.getD r false || inetSum (slice win o n) != 0xFFFF

/-- A pen parses a frame in one step (R96 to R107). bs are the frame's bytes, FCS included. -/
def parse (m : Meta) (bs : List Byte) (s : State) : Parse :=
  let shape := selectShape (probeVector m bs s) s
  let win := padWindow bs
  let whole := bs.length ≤ 256
  let lf := (List.range 4).map fun k => lchkFail shape k bs s
  let cf := (List.range 4).map fun k => cchkFail shape k bs lf s
  let hdrShort := whole && bs.length < s.get F.shapeCtrl_DEPTH shape + 4
  let pc := s.get F.shapeCtrl_PRED_CHECK shape
  let (pred, src) :=
    if whole then (bs.length, 0)
    else if pc < 4 then (min 10240 (max 64 (lchkEnd (shape * 4 + pc) win s + 4).toNat), 1)
    else (s.get F.shapeCtrl_PRED_DEFAULT shape, 2)
  let flags (fs : List Bool) : Nat := (List.range 4).foldl (fun n k => n + b2n (fs.getD k false) * 2 ^ k) 0
  { shape, fields := extractFields shape win s, layers := extractLayers shape s, pred,
    status := b2n whole * 2 ^ 15 + b2n (shape == 0) * 2 ^ 14 + b2n hdrShort * 2 ^ 13 + flags lf * 2 ^ 9 +
      flags cf * 2 ^ 5 + src * 2 ^ 3 }

/-- Bits of the parse status (Table PS-16). -/
def Parse.whole (p : Parse) : Bool := bit p.status 15
def Parse.depth0 (p : Parse) : Bool := bit p.status 14
def Parse.failed (p : Parse) : Bool := bits p.status 13 5 != 0
def Parse.predSrc (p : Parse) : Nat := bits p.status 4 3

/-- The offset of the first layer mark of a kind, outer before inner (R98). -/
def Parse.mark (p : Parse) (kind : Nat) : Option Nat := (p.layers.find? (·.1 == kind)).map (·.2.1)

/-! ## The COMMIT check (R106, R108), over the staged values -/

/-- Header kinds of Table PS-13. -/
def kindOk (k : Nat) : Bool := (1 ≤ k && k ≤ 0x0F) || k == 0x3F

/-- The indices of a class's objects that the staged store lists. -/
def State.stagedListed (s : State) (c : Cls) : List Nat :=
  s.staged.filterMap fun e =>
    if oid c 0 ≤ e.1 && e.1 < oid c 0 + c.row.count then some (e.1 - oid c 0) else none

/-- The offsets rise strictly. -/
def rising : List Nat → Bool
  | a :: b :: t => a < b && rising (b :: t)
  | _ => true

/-- A valid shape's staged objects keep R106 and R108. LEN has its valid values in either mode of a checksum check. DEDUCED,
log entry 117. -/
def shapeOk (s : State) (sh : Nat) : Bool :=
  let g := s.getSt
  let depth := g F.shapeCtrl_DEPTH sh
  let nf := g F.shapeCtrl_NFIELDS sh
  let nl := g F.shapeCtrl_NLAYERS sh
  let pc := g F.shapeCtrl_PRED_CHECK sh
  let lm (k : Nat) : Nat := g F.shapeLchk_MODE (sh * 4 + k)
  let ks := List.range 4
  let offs := (List.range nl).map fun l => g F.shapeLayer_OFFSET (sh * 12 + l)
  let kinds := (List.range nl).map fun l => g F.shapeLayer_KIND (sh * 12 + l)
  14 ≤ depth && depth ≤ 256 && nf ≤ 48 && nl ≤ 12 && g F.shapeCtrl_MAL_ACTION sh != 3 &&
    g F.shapeCtrl_LM_ACTION sh != 3 && (pc < 4 || pc == 7) && 64 ≤ g F.shapeCtrl_PRED_DEFAULT sh &&
    g F.shapeCtrl_PRED_DEFAULT sh ≤ 10240 &&
    ((List.range nf).all fun f =>
      let i := sh * 48 + f
      let w := g F.shapeField_WIDTH i
      1 ≤ w && w ≤ 128 && g F.shapeField_OFFSET i * 8 + g F.shapeField_START i + w ≤ depth * 8) &&
    kinds.all kindOk && rising offs && offs.all (· < depth) &&
    (ks.all fun k =>
      let i := sh * 4 + k
      let m := lm k
      let last := g F.shapeLchk_FOFF i + (if g F.shapeLchk_FWIDTH i == 3 then 1 else 0)
      let r := g F.shapeLchk_REF i
      m ≤ 4 && (m == 0 || (g F.shapeLchk_SCALE i != 3 && g F.shapeLchk_CONST i ≤ 256 && last < depth &&
        (m != 3 || (r != k && lm r != 0 && lm r != 3))))) &&
    (ks.all fun k =>
      let i := sh * 4 + k
      let n := g F.shapeCchk_LEN i
      match g F.shapeCchk_MODE i with
      | 0 => true
      | 1 => n % 2 == 0 && 2 ≤ n && n ≤ 256 && g F.shapeCchk_OFFSET i + n ≤ depth
      | 2 => n % 2 == 0 && 2 ≤ n && n ≤ 256 && lm (g F.shapeCchk_REF i) != 0
      | _ => false) &&
    (pc == 7 || (lm pc != 0 && lm pc != 4)) &&
    (sh != 0 || (depth ≤ 22 && (kinds.all fun k => 1 ≤ k && k ≤ 3) &&
      (ks.all fun k => lm k == 0 && g F.shapeCchk_MODE (sh * 4 + k) == 0) && pc == 7))

/-- The staged values of unit PENS pass R17, R106 and R108. -/
def pensOk (s : State) : Bool :=
  let g := s.getSt
  let lo := g F.paceControl_VCORE_MIN 0
  let hi := g F.paceControl_VCORE_MAX 0
  let fx := g F.paceControl_VCORE_FIXED 0
  let m := g F.paceControl_MARGIN 0
  let shapes := (0 :: (s.stagedListed .shapeCtrl).filter (· != 0)).filter fun sh => s.getSt F.shapeCtrl_VALID sh == 1
  680 ≤ lo && lo ≤ fx && fx ≤ hi && hi ≤ 820 && 10 ≤ m && m ≤ 100 &&
    ((List.range 32).all fun i =>
      if g F.probePoint_SRC i == 1 then g F.probePoint_OFFSET i ≤ 2 else g F.probePoint_OFFSET i ≤ 254) &&
    ((s.stagedListed .selCtrl).all fun e =>
      g F.selCtrl_VALID e == 0 || g F.shapeCtrl_VALID (g F.selCtrl_SHAPE e) == 1) &&
    64 ≤ g F.raceCfg_RACE_TIMEOUT 0 && g F.raceCfg_RACE_TIMEOUT 0 ≤ 1000 &&
    shapes.all (shapeOk s)

end Sys2Proof.Machine
end

