-- ==== Sys2Proof/Machine/Perf.lean ====
section
/-! DEFINITION. Machine/Perf.lean: the performance event counters (R226, Tables TM-13 and TM-14). -/

namespace Sys2Proof.Machine

open Sys2Proof

/-- The greatest INST of an event of Table TM-14; none for a pair outside it. DESIGN CHOICE, log entry 48. -/
def perfInsts (unit ev : Nat) : Option Nat :=
  match unit, ev with
  | 0x01, 0x01 | 0x01, 0x02 | 0x01, 0x03 => some 1023
  | 0x03, 0x01 | 0x04, 0x01 | 0x04, 0x02 => some 95
  | 0x05, 0x01 | 0x05, 0x02 => some 1023
  | 0x06, 0x01 => some 2047
  | 0x07, 0x01 => some 15
  | 0x0A, 0x01 => some 3
  | 0x0A, 0x02 => some 0
  | 0x0B, 0x01 => some 66047
  | 0x0C, 0x01 => some 0
  | 0x12, 0x01 => some 3
  | _, _ => none

/-- Counter c counts n occurrences of its event: all of them in edge mode, one for the present nanosecond in level mode. -/
def perfCount (c n : Nat) (s : State) : State :=
  if n == 0 then s
  else if s.on F.perfSel_LEVEL c then
    if s.perf.any fun e => e.1 == c && e.2 == s.frc then s
    else ({ s with perf := insKey c s.frc s.perf }).addSticky F.perfCnt_VALUE F.perfCnt_WRAPPED c 1
  else s.addSticky F.perfCnt_VALUE F.perfCnt_WRAPPED c n

/-- n occurrences of an event. -/
def perfEvent (unit ev inst n : Nat) (s : State) : State :=
  (s.live.filterMap fun e =>
    if e.1 / 2 ^ 32 == oid .perfSel 0 / 2 ^ 32 then some (e.1 % 2 ^ 32) else none).foldl (fun s c =>
      if s.get F.perfSel_UNIT c == unit && s.get F.perfSel_EVENT c == ev && s.get F.perfSel_INST c == inst then
        perfCount c n s
      else s) s

end Sys2Proof.Machine
end

