-- ==== Sys2Proof/Machine/Tables.lean ====
section
/-! DEFINITION. Machine/Tables.lean: result references, keys, the exact-match table with its overflow store and promoter, the
longest-prefix-match trie, the rule store, hit bits, learning, and the COMMIT checks of units EM, LPM and RULES (chapter
5). -/

namespace Sys2Proof.Machine

open Sys2Proof

/-! ## Versions and references -/

/-- Serial comparison modulo 65,536 (R123). -/
def serialLe (a b : Nat) : Bool := (b + 65536 - a % 65536) % 65536 < 32768
def serialLt (a b : Nat) : Bool := serialLe a b && a % 65536 != b % 65536

/-- TYPE and index of a result reference (Table FT-7). -/
def refType (r : Nat) : Nat := bits r 21 20
def refIndex (r : Nat) : Nat := r % 2 ^ 20

/-- A reference is well formed: every bit above its index is zero and a port is 0–1025 (R120). -/
def refOk (r : Nat) : Bool :=
  r < 2 ^ 22 &&
  match refType r with
  | 0 => true
  | 1 => refIndex r < 2 ^ 18
  | 2 => refIndex r < 2 ^ 14
  | _ => refIndex r ≤ 1025

/-! ## Keys (R118) -/

/-- What the segment sources of Table FT-6 name. -/
structure KeyEnv where
  fields : List Nat
  port : Nat
  fid : Nat
  vrf : Nat
  egress : Nat
  deriving DecidableEq, Repr

/-- The value of a segment source. -/
def keySource (e : KeyEnv) (src : Nat) : Nat :=
  if src ≤ 0x2F then e.fields.getD src 0
  else if src == 0x30 then e.port
  else if src == 0x31 then e.fid
  else if src == 0x32 then e.vrf
  else if src == 0x33 then e.egress
  else 0

/-- The concatenation of segments (SRC, LSB, WIDTH), the first most significant. -/
def concatSegs (e : KeyEnv) : List (Nat × Nat × Nat) → Nat → Nat
  | [], k => k
  | (src, lsb, w) :: t, k => concatSegs e t (k * 2 ^ w + keySource e src / 2 ^ lsb % 2 ^ w)

/-- The key of EM table t: its destination key (segments 0–7) or its source key (8–15). -/
def emKey (t : Nat) (source : Bool) (e : KeyEnv) (s : State) : Nat :=
  concatSegs e ((List.range 8).map fun j =>
    let i := t * 16 + (if source then 8 else 0) + j
    (s.get F.emKeyseg_SRC i, s.get F.emKeyseg_LSB i, s.get F.emKeyseg_WIDTH i)) 0

/-- The key of a slice. -/
def sliceKey (n : Nat) (e : KeyEnv) (s : State) : Nat :=
  concatSegs e ((List.range 8).map fun j =>
    let i := n * 8 + j
    (s.get F.sliceSeg_SRC i, s.get F.sliceSeg_LSB i, s.get F.sliceSeg_WIDTH i)) 0

/-! ## Exact-match entries (Tables FT-9 to FT-11) -/

/-- An entry as its bits, 128 or 256 of them. -/
structure EmEntry where
  wide : Bool
  raw : Nat
  deriving DecidableEq, Repr

/-- Bits of an entry counted from its top: hi and lo as a narrow entry numbers its header bits 127 to 64. -/
def EmEntry.hdr (e : EmEntry) (hi lo : Nat) : Nat :=
  let d := if e.wide then 128 else 0
  bits e.raw (hi + d) (lo + d)

def EmEntry.kind (e : EmEntry) : Nat := e.hdr 125 124
def EmEntry.table (e : EmEntry) : Nat := e.hdr 123 120
def EmEntry.isOpen (e : EmEntry) : Bool := e.hdr 119 119 == 1
def EmEntry.settled (e : EmEntry) : Bool := e.hdr 118 118 == 1
def EmEntry.born (e : EmEntry) : Nat := e.hdr 117 102
def EmEntry.retired (e : EmEntry) : Nat := e.hdr 101 86
def EmEntry.result (e : EmEntry) : Nat := e.hdr 85 64

/-- The key bits of an entry: 64, 192, or 96 for a tally entry (R218). -/
def EmEntry.key (e : EmEntry) : Nat :=
  if !e.wide then e.raw % 2 ^ 64 else if e.kind == 1 then e.raw % 2 ^ 96 else e.raw % 2 ^ 192

/-- The key width of a table (R118, R218). -/
def emKeyWidth (wide : Bool) (kind : Nat) : Nat := if !wide then 64 else if kind == 1 then 96 else 192

/-- A new entry: VALID 1, OPEN 1, SETTLED 0, BORN the staged version (R125). A tally record starts at zero (R218). -/
def newEm (wide : Bool) (kind t born result key : Nat) : EmEntry :=
  let d := if wide then 128 else 0
  let res := if wide && kind == 1 then 0 else result * 2 ^ (64 + d)
  { wide,
    raw := 2 ^ (127 + d) + b2n wide * 2 ^ (126 + d) + kind % 4 * 2 ^ (124 + d) + t % 16 * 2 ^ (120 + d) +
      2 ^ (119 + d) + born % 65536 * 2 ^ (102 + d) + res + key }

/-- An entry with header bits set. -/
def EmEntry.setHdr (e : EmEntry) (hi lo x : Nat) : EmEntry :=
  let d := if e.wide then 128 else 0
  { e with raw := e.raw - bits e.raw (hi + d) (lo + d) * 2 ^ (lo + d) + x % 2 ^ (hi + 1 - lo) * 2 ^ (lo + d) }

/-- visible(e, v) of R123; entries are read only while VALID. -/
def visibleIn (settled isOpen : Bool) (born retired v : Nat) : Bool :=
  (settled || serialLe born v) && (isOpen || serialLt v retired)

def EmEntry.visible (e : EmEntry) (v : Nat) : Bool := visibleIn e.settled e.isOpen e.born e.retired v

/-- Where an entry stands. -/
inductive EmLoc where
  | home (slot : Nat)
  | ovf (i : Nat)
  deriving DecidableEq, Repr

/-- The value of a slot object. -/
def slotRaw (i : Nat) (s : State) : Nat := (s.obj .emSlot i).toNat % 2 ^ 128

/-- Slot i holds the first half of a wide entry. -/
def slotWide (i : Nat) (s : State) : Bool := s.on F.emSlot_VALID i && s.on F.emSlot_WIDE i && i % 2 == 0

/-- Slot i is free: VALID 0, and no second half of a wide entry (R125). -/
def slotFree (i : Nat) (s : State) : Bool :=
  if i % 2 == 1 && slotWide (i - 1) s then false else !s.on F.emSlot_VALID i

/-- The entry that starts at a slot. -/
def slotEntry (i : Nat) (s : State) : Option EmEntry :=
  if i % 2 == 1 && slotWide (i - 1) s then none
  else if !s.on F.emSlot_VALID i then none
  else if slotWide i s then some { wide := true, raw := slotRaw i s * 2 ^ 128 + slotRaw (i + 1) s }
  else some { wide := false, raw := slotRaw i s }

/-- The entry of an overflow index. -/
def ovfEntry (i : Nat) (s : State) : Option EmEntry :=
  if s.on F.emOvf_USED i then
    let r := s.get F.emOvf_ENTRY i
    some (if bit r 255 then { wide := true, raw := r } else { wide := false, raw := r })
  else none

/-- The entry at a place. -/
def emAt (l : EmLoc) (s : State) : Option EmEntry :=
  match l with
  | .home i => slotEntry i s
  | .ovf i => ovfEntry i s

/-- An entry written at a place; the check bits of its words are stored anew. -/
def emWrite (l : EmLoc) (e : EmEntry) (s : State) : State :=
  match l with
  | .home i =>
    let s := freshWords (instOf 0x05 (i / 4 % 1024)) (slotWords i (if e.wide then 2 else 1)) s
    if e.wide then
      (s.setObj .emSlot i (BitVec.ofNat 512 (e.raw / 2 ^ 128))).setObj .emSlot (i + 1)
        (BitVec.ofNat 512 (e.raw % 2 ^ 128))
    else s.setObj .emSlot i (BitVec.ofNat 512 e.raw)
  | .ovf i => (clearUpset .emOvf i s).puts i [(F.emOvf_USED, 1), (F.emOvf_ENTRY, e.raw)]

/-- A place freed by a delete, the discard of a version or reclamation: an entry cleared has every bit 0 (R126). DEDUCED, log
entry 120. -/
def emFree (l : EmLoc) (wide : Bool) (s : State) : State :=
  match l with
  | .home i =>
    let s := freshWords (instOf 0x05 (i / 4 % 1024)) (slotWords i (if wide then 2 else 1)) s
    let s := s.setObj .emSlot i 0
    if wide then s.setObj .emSlot (i + 1) 0 else s
  | .ovf i => (clearUpset .emOvf i s).setObj .emOvf i 0

/-- The home bucket of a key (R121). DEDUCED, log entry 36. -/
def emHome (t : Nat) (wide : Bool) (key : Nat) (s : State) : Nat :=
  let bs := BitVec.ofNat 8 t :: natBytes (if wide then 24 else 8) key
  let h := (crc32c bs (BitVec.ofNat 32 (s.get F.emTable_SEED t))) ^^^ 0xFFFFFFFF
  h.toNat * 1310720 / 2 ^ 32

/-- The home bucket of an entry of table t. -/
def emTableHome (t key : Nat) (s : State) : Nat := emHome t (s.on F.emTable_WIDE t) key s

/-- The slots of a bucket. -/
def bucketSlots (b : Nat) : List Nat := rangeFrom (b * 4) 4

/-- The overflow indices in use whose HOME is a bucket, rising. -/
def ovfOf (b : Nat) (s : State) : List Nat :=
  (s.listed .emOvf).filter fun i => s.on F.emOvf_USED i && s.get F.emOvf_HOME i == b

/-- An entry of table t with a key, visible to a version. -/
def EmEntry.hits (e : EmEntry) (t key v : Nat) : Bool := e.table == t && e.key == key && e.visible v

/-- The places a lookup searches: the home bucket, then the overflow store (R124). -/
def emPlaces (b : Nat) (s : State) : List EmLoc := (bucketSlots b).map .home ++ (ovfOf b s).map .ovf

/-- The entry of a key that a version sees: the home entry if there is one, else the overflow entry (R124). -/
def emFind (t key v : Nat) (s : State) : Option (EmLoc × EmEntry) :=
  (emPlaces (emTableHome t key s) s).findSome? fun l =>
    match emAt l s with
    | some e => if e.hits t key v then some (l, e) else none
    | none => none

/-- The bank of a bucket (R121). -/
def emBank (b : Nat) : Nat := b % 1024

/-- The HIT_WORD index and bit of a place (R129). -/
def hitPlace : EmLoc → Nat × Nat
  | .home i => (i / 64, i % 64)
  | .ovf i => (81920 + i / 64, i % 64)

/-- The hit bit of a place. -/
def hitBit (l : EmLoc) (s : State) : Bool := bit (s.get F.hitWord_HITS (hitPlace l).1) (hitPlace l).2

/-- The hit bit of a place set or cleared. -/
def setHit (l : EmLoc) (b : Bool) (s : State) : State :=
  let (w, n) := hitPlace l
  s.put F.hitWord_HITS w (setBit (s.get F.hitWord_HITS w) n b)

/-- What a lookup of the frame path gives. -/
inductive Look (α : Type) where
  | hit (a : α)
  | miss
  | ecc
  deriving DecidableEq, Repr

/-- An access of a frame to an EM bank (R137, Table TM-14). How many accesses of the bank wait is open: whether the access
meets a full queue is a free value. DESIGN CHOICE, log entry 48. -/
def bankAccess (bank : Nat) (s : State) : State :=
  let (v, s) := s.draw
  let n := lookD 0 s.tab.stalls bank + v % 2
  perfEvent 0x05 0x02 bank (v % 2) (perfEvent 0x05 0x01 bank 1
    { s with tab := { s.tab with stalls := insKey bank n s.tab.stalls } })

/-- A frame's lookup in the EM: the bank's words are evaluated, and a match sets its hit bit (R124, R129). It searches the home
bucket and the overflow store together, so it ends without an access where either is isolated (Table FA-7). -/
def emLookup (t key v : Nat) (s : State) : Look (EmLoc × EmEntry) × State :=
  let b := emTableHome t key s
  if s.isolated (instOf 0x05 (emBank b)) || s.isolated (instOf 0x05 1024) then (.ecc, s)
  else
    let s := bankAccess (emBank b) s
    let (s, bad) := evalWords (instOf 0x05 (emBank b)) (placesOf .emSlot (b * 4)) s
    if bad then (.ecc, s)
    else match emFind t key v s with
      | none => (.miss, s)
      | some (l, e) =>
        match l with
        | .home _ => (.hit (l, e), setHit l true s)
        | .ovf i =>
          let (s, bad) := evalObj .emOvf i s
          if bad then (.ecc, s) else (.hit (l, e), setHit l true s)

/-! ## Placing, retiring and moving (R125 to R127) -/

/-- The lowest free slot of a bucket, or its lowest free aligned pair. -/
def freeSlot (b : Nat) (wide : Bool) (s : State) : Option Nat :=
  if wide then [b * 4, b * 4 + 2].find? fun i => slotFree i s && slotFree (i + 1) s
  else (bucketSlots b).find? (slotFree · s)

/-- The lowest number that is not an overflow entry in use. -/
def freeOvf (s : State) : Option Nat :=
  let used := (s.listed .emOvf).filter fun i => s.on F.emOvf_USED i
  ((List.range (used.length + 1)).find? fun i => !used.contains i).filter (· < 16384)

/-- What EM_INSERT answers: the new state, or a status code (R125). A hit bit is cleared by a read of its HIT_WORD alone
(R129). -/
def emInsertDo (t : Nat) (wide : Bool) (key result v : Nat) (s : State) : Except Nat State :=
  let tw := s.on F.emTable_WIDE t
  let kind := s.get F.emTable_KIND t
  if !s.on F.emTable_VALID t || key ≥ 2 ^ emKeyWidth tw kind || !refOk result then .error stBadParam
  else if (emFind t key v s).isSome then .error stExists
  else if tw != wide then .error stBadParam
  else
    let b := emHome t tw key s
    let e := newEm tw kind t v result key
    match freeSlot b tw s with
    | some i => .ok (emWrite (.home i) e s)
    | none =>
      match freeOvf s with
      | some i => .ok ((emWrite (.ovf i) e s).put F.emOvf_HOME i b)
      | none => .error stNoSpace

/-- An entry retired in the staged version, or cleared at once if born in it (R126). DEDUCED, log entry 35. -/
def emRetire (l : EmLoc) (e : EmEntry) (v : Nat) (s : State) : State :=
  if e.born == v % 65536 && !e.settled then emFree l e.wide s
  else emWrite l ((e.setHdr 101 86 v).setHdr 119 119 0) s

/-- The promoter moves entry e of overflow index o to slot i (R127): its hit bit moves with it, as in the example of chapter
5, and of the original only USED changes. -/
def promoteTo (i o : Nat) (e : EmEntry) (s : State) : State :=
  let s := setHit (.home i) (hitBit (.ovf o) s) (emWrite (.home i) e s)
  (setHit (.ovf o) false (s.put F.emOvf_USED o 0)).addWrap F.emStatus_MOVES 0 1

/-- The loop of R127 over overflow entries of a bucket: the first that has no room ends it. -/
def promoteAll (b : Nat) : List Nat → State → State
  | [], s => s
  | o :: os, s =>
    match ovfEntry o s with
    | none => promoteAll b os s
    | some e =>
      match freeSlot b e.wide s with
      | none => s
      | some i => promoteAll b os (promoteTo i o e s)

/-- PROMOTER_MOVE of a bucket: its overflow entries in rising order. -/
def promoteDo (b : Nat) (s : State) : State := promoteAll b (ovfOf b s) s

/-- Every place that holds an EM entry. -/
def emAll (s : State) : List EmLoc :=
  ((s.listed .emSlot).filter fun i => (slotEntry i s).isSome).map .home ++
    ((s.listed .emOvf).filter fun i => s.on F.emOvf_USED i).map .ovf

/-- Table t holds a valid entry. -/
def emHolds (t : Nat) (s : State) : Bool :=
  (emAll s).any fun l => match emAt l s with
    | some e => e.table == t
    | none => false

/-! ## Longest-prefix match (R130 to R132) -/

/-- The strides of a profile (Table FT-14). -/
def strides (profile : Nat) : List Nat :=
  match profile with
  | 0 => [16, 8, 8]
  | 1 => [8, 8, 8, 8]
  | 2 => [16, 8, 8, 8, 8, 8, 4, 4]
  | _ => [8, 8, 8, 8, 8, 8, 8, 8]

/-- The root of table x for an earmark. -/
def lpmRootFld (e : Nat) : Fld :=
  match e with
  | 0 => F.lpmTable_ROOT0
  | 1 => F.lpmTable_ROOT1
  | 2 => F.lpmTable_ROOT2
  | _ => F.lpmTable_ROOT3

/-- One BAD_PTR. DEDUCED, log entry 57. -/
def badPtr (s : State) : State := s.addWrap F.lpmStatus_BAD_PTR 0 1

/-- The walk of R132 from a node on, over the strides left: w is the address width, lev the level above (none at the
root), pos the bits used. DEDUCED, log entry 57. -/
def lpmWalk (a w : Nat) : List Nat → Option Nat → Nat → Nat → State → Look Nat × State
  | [], _, _, _, s => (.miss, badPtr s)
  | st :: rest, lev, p, pos, s =>
    let l := p / 2 ^ 20
    let word := p % 2 ^ 20
    let below := match lev with
      | some v => decide (l ≤ v)
      | none => false
    if below || word % 2 ^ (st - 1) != 0 || word + 2 ^ (st - 1) > 786432 then (.miss, badPtr s)
    else
      let k := a / 2 ^ (w - pos - st) % 2 ^ st
      let i := l * 786432 + word + k / 2
      let chk := instOf 0x06 (l * 256 + (word + k / 2) % 256)
      if s.isolated chk then (.ecc, s)
      else
        let s := perfEvent 0x06 0x01 (chk % 2 ^ 24) 1 s
        let (s, bad) := evalObj .lpmWord i s
        if bad then (.ecc, s)
        else
          let slot := s.get F.lpmWord_SLOTS i / 2 ^ (32 * (k % 2)) % 2 ^ 32
          match slot / 2 ^ 30 with
          | 0 => (.miss, s)
          | 1 => (.hit (slot % 2 ^ 22), s)
          | 2 =>
            if rest.isEmpty then (.miss, badPtr s) else lpmWalk a w rest (some l) (slot / 2 ^ 7 % 2 ^ 23) (pos + st) s
          | _ => (.miss, badPtr s)

/-- LPM lookups counted in thousands (Table FT-17). -/
def lpmCount (s : State) : State :=
  let n := s.tab.lpmLookups + 1
  ({ s with tab := { s.tab with lpmLookups := n } }).put F.lpmStatus_LOOKUPS_K 0 (n / 1000)

/-- A frame's LPM lookup of an address in the table of a VRF and family, with its earmark. -/
def lpmLookup (vrf : Nat) (v6 : Bool) (a earmark : Nat) (s : State) : Look Nat × State :=
  let x := vrf * 2 + b2n v6
  let s := lpmCount s
  if s.on F.lpmTable_ENABLE x then
    lpmWalk (a % 2 ^ (if v6 then 128 else 32)) (if v6 then 128 else 32) (strides (s.get F.lpmTable_PROFILE x)) none
      (s.get (lpmRootFld earmark) x) 0 s
  else (.miss, s)

/-! ## Rule store (R135, R136) -/

/-- Rule i is present and visible to a version. -/
def ruleVisible (i v : Nat) (s : State) : Bool :=
  s.on F.ruleCtrl_VALID i && visibleIn (s.on F.ruleCtrl_SETTLED i) (s.on F.ruleCtrl_OPEN i) (s.get F.ruleCtrl_BORN i)
    (s.get F.ruleCtrl_RETIRED i) v

/-- Rule i matches a key. -/
def ruleMatches (i key : Nat) (s : State) : Bool :=
  (BitVec.ofNat 512 key ^^^ s.obj .ruleKey i) &&& s.obj .ruleMask i == 0

/-- The rules of a slice that the store lists, rising. -/
def sliceRules (n : Nat) (s : State) : List Nat :=
  (s.listed .ruleCtrl).filter fun i => n * 8192 ≤ i && i < (n + 1) * 8192

/-- A frame's search of slice n: the lowest matching entry. The words of the entry returned are evaluated. -/
def ruleSearch (n key v : Nat) (s : State) : Look Nat × State :=
  if s.isolated (instOf 0x07 n) then (.ecc, s)
  else
    let s := perfEvent 0x07 0x01 n 1 s
    match (sliceRules n s).find? fun i => ruleVisible i v s && ruleMatches i key s with
    | none => (.miss, s)
    | some i =>
      let (s, b1) := evalObj .ruleKey i s
      let (s, b2) := evalObj .ruleMask i s
      let (s, b3) := evalObj .ruleCtrl i s
      if b1 || b2 || b3 then (.ecc, s) else (.hit (s.get F.ruleCtrl_RESULT i), s)

/-- RULE_INSERT of an index: the staged version is its BORN (R135). -/
def ruleInsertDo (i result v : Nat) (s : State) : State :=
  (clearUpset .ruleCtrl i s).setObj .ruleCtrl i (BitVec.ofNat 512
    (2 ^ 63 + 2 ^ 62 + v % 65536 * 2 ^ 45 + result % 2 ^ 22 * 2 ^ 7))

/-- A rule retired in the staged version, or cleared at once if born in it (R126, R135). -/
def ruleRetire (i v : Nat) (s : State) : State :=
  if s.get F.ruleCtrl_BORN i == v % 65536 && !s.on F.ruleCtrl_SETTLED i then s.setObj .ruleCtrl i 0
  else s.puts i [(F.ruleCtrl_RETIRED, v), (F.ruleCtrl_OPEN, 0)]

/-! ## Sweep (R123) -/

/-- The sweep settles every entry whose BORN is at or before the oldest live version. -/
def sweepDo (oldest : Nat) (s : State) : State :=
  let s := (emAll s).foldl (fun s l => match emAt l s with
    | some e => if !e.settled && serialLe e.born oldest then emWrite l (e.setHdr 118 118 1) s else s
    | none => s) s
  (s.listed .ruleCtrl).foldl (fun s i =>
    if s.on F.ruleCtrl_VALID i && !s.on F.ruleCtrl_SETTLED i && serialLe (s.get F.ruleCtrl_BORN i) oldest then
      s.put F.ruleCtrl_SETTLED i 1 else s) s

/-- An unsettled entry is born more than 16,384 versions before a version (R123). -/
def sweepBlocks (new : Nat) (s : State) : Bool :=
  let old (b : Nat) : Bool := 16384 < (new + 65536 - b % 65536) % 65536 && serialLe b new
  ((emAll s).any fun l => match emAt l s with
    | some e => !e.settled && old e.born
    | none => false) ||
  ((s.listed .ruleCtrl).any fun i =>
    s.on F.ruleCtrl_VALID i && !s.on F.ruleCtrl_SETTLED i && old (s.get F.ruleCtrl_BORN i))

/-! ## Learning (R139 to R141) -/

/-- The pending filter takes a stray; a notice that passes it is queued or lost (R140, R141). flags: MISS[31],
MISMATCH[30] of W0. -/
def strayRaise (n : Notice) (s : State) : State :=
  let same (e : FilterEntry) : Bool := e.addr == n.addr && e.fid == n.fid
  match s.tab.filter.find? same with
  | some e =>
    if e.port == n.port then s.addWrap F.learnStatus_SUPPRESSED 0 1
    else
      let f := s.tab.filter.map fun e => if same e then { e with port := n.port, since := s.frc } else e
      enqueue { n with flags := n.flags + 2 ^ 29 }
        (({ s with tab := { s.tab with filter := f } }).inc F.learnStatus_MOVES 0)
  | none =>
    if s.tab.filter.length < 4096 then
      enqueue n { s with tab := { s.tab with filter := s.tab.filter ++ [⟨n.addr, n.fid, n.port, s.frc⟩] } }
    else enqueue { n with flags := n.flags + 2 ^ 28 } (s.inc F.learnStatus_UNFILTERED 0)
where
  enqueue (n : Notice) (s : State) : State :=
    let n := { n with seq := s.tab.nextNotice }
    let s := ({ s with tab := { s.tab with nextNotice := (s.tab.nextNotice + 1) % 2 ^ 32 } }).addWrap
      F.learnStatus_NOTICES 0 1
    if s.get F.learnCfg_DEST 0 == 2 then s
    else if s.tab.notices.length < 4096 then { s with tab := { s.tab with notices := s.tab.notices ++ [n] } }
    else ({ s with tab := { s.tab with
      filter := s.tab.filter.filter fun e => !(e.addr == n.addr && e.fid == n.fid) } }).inc F.learnStatus_LOST 0

/-- A notice is discarded: counted in LOST, its filter entry removed (R141). -/
def noticeLost (n : Notice) (s : State) : State :=
  ({ s with tab := { s.tab with
    filter := s.tab.filter.filter fun e => !(e.addr == n.addr && e.fid == n.fid) } }).inc F.learnStatus_LOST 0

/-- The four words of a notice (Table FT-22). -/
def Notice.words (n : Notice) : List Word :=
  [BitVec.ofNat 64 (n.seq * 2 ^ 32 + n.flags + n.earmark % 4 * 2 ^ 26 + n.fid % 2 ^ 14 * 2 ^ 12 + n.port % 2 ^ 11),
   BitVec.ofNat 64 (n.table % 16 * 2 ^ 60 + n.addr % 2 ^ 48),
   BitVec.ofNat 64 (stampSec n.stamp * 2 ^ 16),
   BitVec.ofNat 64 (stampNs n.stamp * 2 ^ 32 + n.oldResult % 2 ^ 22 * 2 ^ 10 + n.devid % 1024)]

/-! ## COMMIT checks (R119, R130, R218, R120) -/

/-- A segment as a COMMIT would make it. -/
def segOk (src lsb w : Nat) (tally : Bool) : Bool :=
  (src ≤ 0x32 || (src == 0x33 && tally)) && lsb + w ≤ 128 && w ≤ 128

/-- Unit EM passes its COMMIT check. -/
def emOk (us : List Nat) (s : State) : Bool :=
  let g := s.eff us
  (List.range 16).all fun t =>
    let wide := g F.emTable_WIDE t == 1
    let kind := g F.emTable_KIND t
    let width (k : Nat) : Nat := g F.emKeyseg_WIDTH (t * 16 + k)
    let sum (ks : List Nat) : Nat := (ks.map width).foldl (· + ·) 0
    kind ≤ 1 && !(kind == 1 && !wide) && refOk (g F.emTable_MISS_RESULT t) &&
    ((List.range 16).all fun k =>
      segOk (g F.emKeyseg_SRC (t * 16 + k)) (g F.emKeyseg_LSB (t * 16 + k)) (width k) (kind == 1)) &&
    sum (List.range 8) ≤ emKeyWidth wide kind && sum (rangeFrom 8 8) ≤ (if wide then 192 else 64) &&
    (!emHolds t s || (g F.emTable_SEED t == s.get F.emTable_SEED t && g F.emTable_WIDE t == s.get F.emTable_WIDE t &&
      kind == s.get F.emTable_KIND t &&
      (List.range 16).all fun k =>
        let i := t * 16 + k
        g F.emKeyseg_SRC i == s.get F.emKeyseg_SRC i && g F.emKeyseg_LSB i == s.get F.emKeyseg_LSB i &&
          g F.emKeyseg_WIDTH i == s.get F.emKeyseg_WIDTH i)) &&
    g F.learnCfg_DEST 0 != 3

/-- A plan keeps the rules of R119. SRC_EN needs FWD 01 in every plan, the other rules are for valid ones. -/
def planOk (us : List Nat) (s : State) (p : Nat) : Bool :=
  let g := s.eff us
  let valid (t : Nat) : Bool := g F.emTable_VALID t == 1
  let look (t : Nat) : Bool := valid t && g F.emTable_KIND t == 0
  let tally (t : Nat) : Bool := valid t && g F.emTable_KIND t == 1
  let fwd := g F.lookupPlan_FWD p
  let acl := g F.lookupPlan_ACL_SLICES p
  let cls := g F.lookupPlan_CLS_EN p == 1
  let cs := g F.lookupPlan_CLS_SLICE p
  let long := g F.rulesCfg_LONG_EN 0 == 1
  let ls := g F.rulesCfg_LONG_SLICE 0
  let src := g F.lookupPlan_SRC_EN p == 1
  (!src || fwd == 1) && (g F.lookupPlan_VALID p == 0 ||
    ((!(fwd == 1 || fwd == 3) || look (g F.lookupPlan_DST_TABLE p)) &&
     (!src || look (g F.lookupPlan_SRC_TABLE p)) &&
     (g F.lookupPlan_TALLY0_EN p == 0 || tally (g F.lookupPlan_TALLY0_TABLE p)) &&
     (g F.lookupPlan_TALLY1_EN p == 0 || tally (g F.lookupPlan_TALLY1_TABLE p)) &&
     !(cls && bit acl cs) && !(long && (bit acl ls || (cls && cs == ls))) &&
     !(fwd == 2 && 47 < g F.lookupPlan_ADDR_SLOT p)))

/-- Every lookup plan that either store lists keeps R119. -/
def plansOk (us : List Nat) (s : State) : Bool :=
  (s.listed .lookupPlan ++ s.stagedListed .lookupPlan).all (planOk us s)

/-- Unit RULES passes its COMMIT check. -/
def rulesOk (us : List Nat) (s : State) : Bool :=
  let g := s.eff us
  ((List.range 16).all fun n =>
    (((List.range 8).map fun k => g F.sliceSeg_WIDTH (n * 8 + k)).foldl (· + ·) 0 ≤ 320) &&
    (List.range 8).all fun k =>
      segOk (g F.sliceSeg_SRC (n * 8 + k)) (g F.sliceSeg_LSB (n * 8 + k)) (g F.sliceSeg_WIDTH (n * 8 + k)) false)

/-- Unit LPM passes its COMMIT check (R130). -/
def lpmOk (us : List Nat) (s : State) : Bool :=
  (s.listed .lpmTable ++ s.stagedListed .lpmTable).all fun x =>
    s.eff us F.lpmTable_ENABLE x == 0 || s.eff us F.lpmTable_PROFILE x / 2 == x % 2

end Sys2Proof.Machine
end

