-- ==== Sys2Proof/Machine/Actions.lean ====
section
/-! DEFINITION. Machine/Actions.lean: action entries, next hops, groups, the flow hash, rewrite templates and their edits,
mirror sessions, the write checks of table content and the COMMIT check of unit ACTIONS (R143 to R158). -/

namespace Sys2Proof.Machine

open Sys2Proof

/-! ## Versioned objects (R144, R145) -/

/-- STATE of a versioned object: 0 FREE, 1 STAGED, 2 LIVE, 3 RETIRED (Table AV-3); none for another class. -/
def stateFld (c : Cls) : Option (Fld × Fld) :=
  match c with
  | .action => some (F.action_STATE, F.action_RETIRED)
  | .nextHop => some (F.nextHop_STATE, F.nextHop_RETIRED)
  | .group => some (F.group_STATE, F.group_RETIRED)
  | .tplCtrl => some (F.tplCtrl_STATE, F.tplCtrl_RETIRED)
  | _ => none

/-- STATE of an object of a versioned class. -/
def objState (c : Cls) (i : Nat) (s : State) : Nat :=
  match stateFld c with
  | some (f, _) => s.get f i
  | none => 0

/-- The versioned objects that the store lists. -/
def versioned (s : State) : List (Cls × Nat) :=
  [Cls.action, .nextHop, .group, .tplCtrl].flatMap fun c => (s.listed c).map fun i => (c, i)

/-- A release in staged version v (R145); none for NOT_FOUND. -/
def releaseDo (c : Cls) (i v : Nat) (s : State) : Option State :=
  match stateFld c with
  | none => none
  | some (st, rt) =>
    match s.get st i with
    | 1 => some (s.put st i 0)
    | 2 => some (s.puts i [(st, 3), (rt, v)])
    | _ => none

/-- A LAG or ECMP member's reference fits its group (R151). -/
def memberFits (lag : Bool) (r : Nat) : Bool :=
  refOk r && if lag then refType r == 3 && refIndex r ≤ 1023 else refType r == 1 || refType r == 3

/-- The groups that cover a member word. -/
def groupsOf (m : Nat) (s : State) : List Nat :=
  (s.listed .group).filter fun g =>
    s.get F.group_STATE g != 0 && s.get F.group_BASE g ≤ m && m < s.get F.group_BASE g + s.get F.group_SIZE g

/-! ## Templates (Table AV-8, R154) -/

/-- The TPL_DATA objects of template t. -/
def tplDataOf (t : Nat) : List Nat := rangeFrom (t * 5) 5

/-- The 80 bytes of template t. -/
def tplBytes (t : Nat) (s : State) : List Byte :=
  (tplDataOf t).flatMap fun i => natBytes 16 ((s.obj .tplData i).toNat % 2 ^ 128)

/-- A template from a TPL_CTRL value and its bytes. -/
def tplOf (v : ObjVal) (data : List Byte) : Tpl :=
  let g := fldGet v
  { decap := g F.tplCtrl_DECAP == 1, encap := g F.tplCtrl_ENCAP, popVlan := g F.tplCtrl_POP_VLAN,
    pushVlan := g F.tplCtrl_PUSH_VLAN, popMpls := g F.tplCtrl_POP_MPLS, pushMpls := g F.tplCtrl_PUSH_MPLS,
    copyTtl := g F.tplCtrl_COPY_TTL == 1, setSmac := g F.tplCtrl_SET_SMAC == 1, smac := g F.tplCtrl_SMAC,
    insLen := g F.tplCtrl_INS_LEN, ipOff := g F.tplCtrl_IP_OFF, udpOff := g F.tplCtrl_UDP_OFF,
    v6 := g F.tplCtrl_OUTER_V6 == 1, entropy := g F.tplCtrl_ENTROPY == 1, data }

/-- A template passes R154. -/
def tplOk (t : Tpl) : Bool :=
  let ipLen := if t.v6 then 40 else 20
  let gre := t.ipOff + ipLen
  t.encap != 3 && t.popVlan ≤ 2 && t.pushVlan ≤ 2 && t.insLen ≤ 80 &&
    !(t.encap != 0 && (t.pushVlan != 0 || t.pushMpls != 0)) &&
    (t.encap == 0 || (t.ipOff + ipLen ≤ t.insLen && (t.v6 || byteAt t.data t.ipOff % 16 == 5))) &&
    (t.encap != 1 || (t.udpOff + 16 ≤ t.insLen && be16 t.data (t.udpOff + 6) == 0)) &&
    (t.encap != 2 || (gre + 4 ≤ t.insLen && byteAt t.data gre < 128))

/-! ## Write checks (R144, R147, R151, R154)

What a write of table content meets: a status code, 0 for a write that is made. -/

/-- The check of a write of an object of unit ACTIONS whose value would become v. -/
def actionWriteCheck (c : Cls) (i : Nat) (v : ObjVal) (s : State) : Nat :=
  if 2 ≤ objState c i s then stBusy
  else match c with
    | .action =>
      let r := fldGet v F.action_FWD
      if !refOk r || (refType r == 0 && r != 0) then stBadParam else 0
    | .nextHop =>
      let r := fldGet v F.nextHop_EGRESS
      if refOk r && 2 ≤ refType r then 0 else stBadParam
    | .group =>
      let base := fldGet v F.group_BASE
      let size := fldGet v F.group_SIZE
      let lag := fldGet v F.group_LAG == 1
      if size < 1 || 512 < size || 262144 < base + size ||
          !((rangeFrom base size).all fun m => memberFits lag (s.get F.member_REF m)) then stBadParam else 0
    | .member =>
      let gs := groupsOf i s
      let r := fldGet v F.member_REF
      if gs.any fun g => 2 ≤ s.get F.group_STATE g then stBusy
      else if !refOk r || gs.any fun g => !memberFits (s.on F.group_LAG g) r then stBadParam
      else 0
    | .tplCtrl => if tplOk (tplOf v (tplBytes i s)) then 0 else stBadParam
    | .tplData =>
      let t := i / 5
      let st := s.get F.tplCtrl_STATE t
      if 2 ≤ st then stBusy
      else if st == 1 &&
          !tplOk (tplOf (s.obj .tplCtrl t) (splice (tplBytes t s) (i % 5 * 16) (natBytes 16 (v.toNat % 2 ^ 128)))) then
        stBadParam
      else 0
    | _ => 0

/-- A write of a versioned object stages it (R144). -/
def stageObj (c : Cls) (i : Nat) (s : State) : State :=
  match stateFld c with
  | some (st, _) => s.put st i 1
  | none => s

/-! ## The flow hash (R153) -/

/-- x rotated left by n within 32 bits. -/
def rotl32 (x n : Nat) : Nat := (x * 2 ^ n + x / 2 ^ (32 - n)) % 2 ^ 32

/-- A value below n that 32 bits of hash choose. DEDUCED, log entry 95. -/
def hashPick (h n : Nat) : Nat := h * n / 2 ^ 32

/-- The flow hash of a frame's field slots and the ingress port of pass 0. DEDUCED, log entry 95. -/
def flowHash (shape : Nat) (fields : List Nat) (port : Nat) (s : State) : Nat :=
  let sel := s.get F.hashPlan_FIELDS shape
  let fs := ((List.range 48).filter (bit sel ·)).flatMap fun f => natBytes 16 (fields.getD f 0)
  let ps := if s.on F.hashPlan_PORT shape then natBytes 2 port else []
  (crc32c (fs ++ ps) (BitVec.ofNat 32 (s.get F.actCfg_HASH_SEED 0)) ^^^ 0xFFFFFFFF).toNat

/-! ## Resolution (R152) -/

/-- What resolving a reference gives: the port, and the next hop's edits. -/
structure Resolved where
  port : Nat
  decTtl : Bool
  dmac : Option Nat
  nh : Option Nat
  deriving DecidableEq, Repr

/-- One BAD_REF. -/
def badRef (s : State) : State := s.inc F.actStatus_BAD_REF 0

/-- The words of an ACTIONS object a resolution reads are evaluated; an uncorrectable one drops the frame (R319). -/
def actRead (c : Cls) (i : Nat) (s : State) : Bool × State :=
  let (s, bad) := evalObj c i s
  (bad, s)

/-- The chain of R152, bounded to its four steps by the write rules. -/
def resolve (h : Nat) : Nat → Nat → Resolved → State → Look Resolved × State
  | 0, _, _, s => (.miss, badRef s)
  | n + 1, r, acc, s =>
    if !refOk r then (.miss, badRef s)
    else match refType r with
      | 3 => (.hit { acc with port := refIndex r }, s)
      | 1 =>
        let i := refIndex r
        let (bad, s) := actRead .nextHop i s
        if bad then (.ecc, s)
        else if s.get F.nextHop_STATE i < 2 then (.miss, badRef s)
        else
          let e := s.get F.nextHop_EGRESS i
          let acc := { acc with
            decTtl := acc.decTtl || s.on F.nextHop_DEC_TTL i,
            dmac := if s.on F.nextHop_SET_DMAC i then some (s.get F.nextHop_DMAC i) else acc.dmac,
            nh := if s.on F.nextHop_TPL_EN i then some (s.get F.nextHop_TEMPLATE i) else acc.nh }
          if refOk e && refType e == 2 && !s.on F.group_LAG (refIndex e) then (.miss, badRef s)
          else resolve h n e acc s
      | 2 =>
        let g := refIndex r
        let (bad, s) := actRead .group g s
        if bad then (.ecc, s)
        else if s.get F.group_STATE g < 2 then (.miss, badRef s)
        else
          let x := if s.on F.group_LAG g then rotl32 h 16 else h
          let m := s.get F.group_BASE g + hashPick x (s.get F.group_SIZE g)
          let (bad, s) := actRead .member m s
          if bad then (.ecc, s) else resolve h n (s.get F.member_REF m) acc s
      | _ => (.miss, badRef s)

/-- Resolving a reference. -/
def resolveRef (h r : Nat) (s : State) : Look Resolved × State :=
  resolve h 4 r { port := 0, decTtl := false, dmac := none, nh := none } s

/-- A template a frame takes: LIVE or RETIRED (R146). Its data words are read with it. -/
def takeTpl (t : Nat) (s : State) : Look Tpl × State :=
  let (bad, s) := actRead .tplCtrl t s
  if bad then (.ecc, s)
  else if s.get F.tplCtrl_STATE t < 2 then (.miss, badRef s)
  else
    let (s, bad) := evalObjs .tplData (tplDataOf t) s
    if bad then (.ecc, s) else (.hit (tplOf (s.obj .tplCtrl t) (tplBytes t s)), s)

/-! ## Edits (R155 to R157, R67, R68) -/

/-- A frame being edited: its bytes without the FCS and its layer marks, the IPv4 headers an edit has touched among them. -/
structure Editing where
  body : List Byte
  marks : List (Nat × Nat × Bool)
  dirty : List Nat
  deriving DecidableEq, Repr

/-- Why an edit fails (R156). -/
inductive EditFail where
  | rule | ttl
  deriving DecidableEq, Repr

/-- The EtherType of a header kind. DEDUCED, log entry 37. -/
def etherOf (kind : Nat) : Nat :=
  match kind with
  | 0x02 => 0x8100
  | 0x03 => 0x88A8
  | 0x04 => 0x8847
  | 0x05 => 0x0800
  | 0x06 => 0x86DD
  | 0x0C => 0x88F7
  | 0x0F => 0x0806
  | k => (Config.etherType k).toNat

/-- n bytes removed at an offset; marks in them go, later ones move up. -/
def Editing.cut (e : Editing) (off n : Nat) : Editing :=
  { body := e.body.take off ++ e.body.drop (off + n),
    marks := (e.marks.filter fun m => m.2.1 < off || off + n ≤ m.2.1).map fun m =>
      if off + n ≤ m.2.1 then (m.1, m.2.1 - n, m.2.2) else m,
    dirty := e.dirty.map fun o => if off + n ≤ o then o - n else o }

/-- Bytes put in at an offset; marks at or past it move down. -/
def Editing.put (e : Editing) (off : Nat) (bs : List Byte) (new : List (Nat × Nat × Bool)) : Editing :=
  let sh (o : Nat) : Nat := if off ≤ o then o + bs.length else o
  { body := e.body.take off ++ bs ++ e.body.drop off,
    marks := sortBy (·.2.1) (e.marks.map (fun m => (m.1, sh m.2.1, m.2.2)) ++ new),
    dirty := e.dirty.map sh }

/-- Bytes written over, inside the frame only (R68). -/
def Editing.patch (e : Editing) (off : Nat) (bs : List Byte) : Editing :=
  if off + bs.length ≤ e.body.length then { e with body := splice e.body off bs } else e

/-- The offset of the first mark of some kinds. -/
def Editing.first (e : Editing) (ks : List Nat) : Option (Nat × Nat) :=
  (e.marks.find? fun m => ks.contains m.1).map fun m => (m.1, m.2.1)

/-- Where the outer Ethernet header and its tags end: the first mark of another kind after the first Ethernet mark, else
behind its last tag. -/
def Editing.l3 (e : Editing) : Option Nat :=
  match e.first [1] with
  | none => none
  | some (_, o) =>
    match e.marks.find? fun m => o < m.2.1 && !(m.1 == 1 || m.1 == 2 || m.1 == 3) with
    | some m => some m.2.1
    | none => some (o + 14 + 4 * (e.marks.filter fun m => m.1 == 2 || m.1 == 3).length)

/-- Step 1: DECAP to the first INNER mark. DEDUCED, log entry 37. -/
def editDecap (e : Editing) : Except EditFail Editing :=
  match e.marks.find? fun m => m.2.2 with
  | none => .error .rule
  | some (k, o, _) =>
    if k == 1 then .ok (e.cut 0 o)
    else match e.l3 with
      | none => .error .rule
      | some l => .ok ((e.cut l (o - l)).patch (l - 2) (natBytes 2 (etherOf k)))

/-- One MPLS label removed; the EtherType follows a bottom label's successor. -/
def popLabel (e : Editing) : Except EditFail Editing :=
  match e.first [4] with
  | none => .error .rule
  | some (_, o) =>
    let bottom := byteAt e.body (o + 2) % 2 == 1
    let e := e.cut o 4
    if bottom then
      match e.marks.find? fun m => o ≤ m.2.1 with
      | some (k, _, _) => if k == 5 || k == 6 then .ok (e.patch (o - 2) (natBytes 2 (etherOf k))) else .error .rule
      | none => .error .rule
    else .ok e

/-- One outer VLAN tag removed. -/
def popTag (e : Editing) : Except EditFail Editing :=
  match e.first [2, 3] with
  | none => .error .rule
  | some (_, o) => .ok (e.cut o 4)

/-- n times an edit. -/
def times (f : Editing → Except EditFail Editing) : Nat → Editing → Except EditFail Editing
  | 0, e => .ok e
  | n + 1, e => (f e).bind (times f n)

/-- Step 3: the TTL or hop limit of the first IP header goes down by 1. -/
def editTtl (e : Editing) : Except EditFail Editing :=
  match e.first [5, 6] with
  | none => .ok e
  | some (k, o) =>
    let p := o + (if k == 5 then 8 else 7)
    if e.body.length ≤ p then .ok e
    else if byteAt e.body p ≤ 1 then .error .ttl
    else
      let e := e.patch p (natBytes 1 (byteAt e.body p - 1))
      .ok (if k == 5 then { e with dirty := e.dirty ++ [o] } else e)

/-- Step 4: tags go behind the source address of the outer Ethernet header. -/
def pushTags (t : Tpl) (e : Editing) : Editing :=
  match t.pushVlan, e.first [1] with
  | 0, _ => e
  | _, none => e
  | n, some (_, o) =>
    e.put (o + 12) (slice t.data 0 (4 * n)) ((List.range n).map fun i =>
      (if be16 t.data (4 * i) == 0x88A8 then 3 else 2, o + 12 + 4 * i, false))

/-- Step 4: labels go behind the Ethernet header and its tags, with EtherType 0x8847; the last is the bottom of the stack
where no label follows. -/
def pushLabels (t : Tpl) (e : Editing) : Editing :=
  match t.pushMpls, e.l3 with
  | 0, _ => e
  | _, none => e
  | n, some l =>
    let below := be16 e.body (l - 2) == 0x8847
    let ttl := match e.first [5, 6] with
      | some (k, o) => byteAt e.body (o + (if k == 5 then 8 else 7))
      | none => 0
    let label (i : Nat) : List Byte :=
      let w := bytesNat (slice t.data (8 + 4 * i) 4)
      let w := w - w / 256 % 2 * 256 + (if i + 1 == n && !below then 256 else 0)
      natBytes 4 (if t.copyTtl then w - w % 256 + ttl else w)
    (e.put l ((List.range n).flatMap label) ((List.range n).map fun i => (4, l + 4 * i, false))).patch (l - 2)
      (natBytes 2 0x8847)

/-- Step 5: ENCAP bytes at the frame start, with the lengths of R157; n is the egress length, h the flow hash. -/
def editEncap (t : Tpl) (n h : Nat) (e : Editing) : Editing :=
  if t.encap == 0 then e
  else
    let d := slice t.data 0 t.insLen
    let d := if t.v6 then splice d (t.ipOff + 4) (natBytes 2 (n - 4 - t.ipOff - 40))
      else splice d (t.ipOff + 2) (natBytes 2 (n - 4 - t.ipOff))
    let d := if t.encap == 1 then
        let d := splice (splice d (t.udpOff + 4) (natBytes 2 (n - 4 - t.udpOff))) (t.udpOff + 6) [0, 0]
        if t.entropy then splice d t.udpOff (natBytes 2 (0xC000 + h % 16384)) else d
      else d
    let e := e.put 0 d [(1, 0, false)]
    if t.v6 then e else { e with dirty := e.dirty ++ [t.ipOff] }

/-- The header checksum of an edited IPv4 header (R67); one cut short is updated incrementally over the edited bytes from
the bytes before (R68). -/
def fixIpv4 (e : Editing) (old : List Byte) (o : Nat) : Editing :=
  let n := byteAt e.body o % 16 * 4
  let rest (b : List Byte) : List Byte := let h := (b.drop o).take n; h.take 10 ++ [0, 0] ++ h.drop 12
  if e.body.length < o + 12 then e
  else if o + n ≤ e.body.length then e.patch (o + 10) (natBytes 2 (65535 - inetSum (rest e.body)))
  else
    e.patch (o + 10) (natBytes 2 (sumUpdate (be16 e.body (o + 10)) (sumWords (rest old)) (sumWords (rest e.body))))

/-- Combined pops and pushes within R156. -/
def editsFit (ts : List Tpl) : Bool :=
  let sum (f : Tpl → Nat) : Nat := (ts.map f).foldl (· + ·) 0
  sum (·.popVlan) ≤ 2 && sum (·.pushVlan) ≤ 2 && sum (·.popMpls) ≤ 3 && sum (·.pushMpls) ≤ 3 &&
    sum (fun t => b2n t.decap) ≤ 1 && sum (fun t => b2n (t.encap != 0)) ≤ 1

/-- The bytes that edits add, removed ones counted negative. -/
def templateGrowth (ts : List Tpl) : Int :=
  ts.foldl (fun (g : Int) t => g + 4 * ((t.pushVlan : Int) + t.pushMpls - t.popVlan - t.popMpls) +
    (if t.encap != 0 then (t.insLen : Int) else 0)) 0

/-- The edits of Table AV-9 in their order on a frame's bytes, FCS left out, with the layer marks as they then stand. n is
the egress length, h the flow hash. -/
def editFrame (x : Edits) (marks : List (Nat × Nat × Bool)) (n h : Nat) (body : List Byte) :
    Except EditFail Editing :=
  let ts := x.act.toList ++ x.nh.toList
  if !editsFit ts then .error .rule
  else
    let all (f : Tpl → Editing → Except EditFail Editing) (e : Editing) : Except EditFail Editing :=
      ts.foldl (fun r t => r.bind (f t)) (.ok e)
    (all (fun t e => if t.decap then editDecap e else .ok e) { body, marks, dirty := [] }).bind fun e =>
    (all (fun t e => times popLabel t.popMpls e) e).bind fun e =>
    (all (fun t e => times popTag t.popVlan e) e).bind fun e =>
    let before := e.body
    (if x.decTtl then editTtl e else .ok e).bind fun e =>
    let e := e.dirty.foldl (fun e o => fixIpv4 e before o) { e with dirty := e.dirty }
    let e := { e with dirty := [] }
    let e := ts.foldl (fun e t => pushTags t e) e
    let e := ts.foldl (fun e t => pushLabels t e) e
    let e := ts.foldl (fun e t => editEncap t n h e) e
    let e := e.dirty.foldl (fun e o => fixIpv4 e e.body o) e
    let smac := match x.nh, x.act with
      | some t, a => if t.setSmac then some t.smac else (a.filter (·.setSmac)).map (·.smac)
      | none, a => (a.filter (·.setSmac)).map (·.smac)
    match e.first [1] with
    | none => .ok e
    | some (_, o) =>
      let e := match smac with
        | some m => e.patch (o + 6) (natBytes 6 m)
        | none => e
      let e := match x.dmac with
        | some m => e.patch o (natBytes 6 m)
        | none => e
      .ok e

/-- The bytes after the edits. -/
def applyEdits (x : Edits) (marks : List (Nat × Nat × Bool)) (n h : Nat) (body : List Byte) :
    Except EditFail (List Byte) := (editFrame x marks n h body).map (·.body)

/-- An edit list changes nothing. -/
def Edits.isNone (x : Edits) : Bool := x.act.isNone && x.nh.isNone && !x.decTtl && x.dmac.isNone

/-- A body padded with zeros so that the frame has 64 bytes (R156). -/
def padBody (bs : List Byte) : List Byte := bs ++ List.replicate (60 - bs.length) 0

/-! ## Action results (R148) -/

/-- One result of a pass: the action entry's fields, or a bare FWD. -/
structure Result where
  fwd : Option Nat
  drop : Bool
  trap : Bool
  copyHost : Bool
  recirc : Bool
  ctx : Option (Nat × Nat)
  tc : Option Nat
  policer : Option Nat
  counter : Option Nat
  mirror : Option Nat
  tpl : Option Nat
  deriving DecidableEq, Repr

/-- A result with only FWD. -/
def bareResult (r : Nat) : Result :=
  { fwd := some r, drop := false, trap := false, copyHost := false, recirc := false, ctx := none, tc := none,
    policer := none, counter := none, mirror := none, tpl := none }

/-- An action entry's result. FWD of TYPE 00 sets no destination (Table AV-4). -/
def actionResult (i : Nat) (s : State) : Result :=
  let g (f : Fld) : Nat := s.get f i
  let opt (en v : Fld) : Option Nat := if g en == 1 then some (g v) else none
  { fwd := if refType (g F.action_FWD) == 0 then none else some (g F.action_FWD),
    drop := g F.action_DROP == 1, trap := g F.action_TRAP == 1, copyHost := g F.action_COPY_HOST == 1,
    recirc := g F.action_RECIRC == 1,
    ctx := if g F.action_SET_CTX == 1 then some (g F.action_FID, g F.action_VRF) else none,
    tc := opt F.action_TC_EN F.action_TC, policer := opt F.action_POL_EN F.action_POLICER,
    counter := opt F.action_CNT_EN F.action_COUNTER, mirror := opt F.action_MIR_EN F.action_MIRROR,
    tpl := opt F.action_TPL_EN F.action_TEMPLATE }

/-- The result a reference names: an action entry, which must be LIVE or RETIRED (R146), or a bare FWD. -/
def takeResult (r : Nat) (s : State) : Look Result × State :=
  if refType r != 0 then (.hit (bareResult r), s)
  else if !refOk r then (.miss, badRef s)
  else
    let (bad, s) := actRead .action (refIndex r) s
    if bad then (.ecc, s)
    else if s.get F.action_STATE (refIndex r) < 2 then (.miss, badRef s)
    else (.hit (actionResult (refIndex r) s), s)

/-- The combination of results in priority order (R148). -/
structure Combined where
  fwd : Option Nat
  drop : Bool
  trap : Bool
  copyHost : Bool
  recirc : Bool
  tc : Option Nat
  tpl : Option Nat
  policers : List Nat
  counters : List Nat
  mirrors : List Nat
  deriving DecidableEq, Repr

/-- A list without repeats, first occurrences kept. -/
def dedup : List Nat → List Nat
  | [] => []
  | x :: xs => x :: (dedup xs).filter (· != x)

def combine (rs : List Result) : Combined :=
  { fwd := rs.findSome? (·.fwd), drop := rs.any (·.drop), trap := rs.any (·.trap),
    copyHost := rs.any (·.copyHost), recirc := rs.any (·.recirc), tc := rs.findSome? (·.tc),
    tpl := rs.findSome? (·.tpl), policers := dedup (rs.filterMap (·.policer)),
    counters := dedup (rs.filterMap (·.counter)), mirrors := dedup (rs.filterMap (·.mirror)) }

/-! ## Mirror sessions (R158) -/

/-- The sessions a frame copies to, the valid ones among the four lowest named; whether more than four were named. -/
def mirrorKept (named : List Nat) (s : State) : List Nat × Bool :=
  (((sortBy id named).take 4).filter fun m => s.on F.mirror_VALID m, 4 < named.length)

/-- A frame is counted for a session, and copied if it is the first of its group of SAMPLE + 1. -/
def mirrorSample (m : Nat) (s : State) : Bool × State :=
  let n := lookD 0 s.ver.mirrors m
  let k := s.get F.mirror_SAMPLE m + 1
  (n % k == 0, { s with ver := { s.ver with mirrors := putD 0 s.ver.mirrors m ((n + 1) % k) } })

/-- What a COMMIT of unit ACTIONS does to the sessions' counts, from the settings before it. -/
def actionsCommitted (old s : State) : State :=
  (List.range 64).foldl (fun s m =>
    if old.get F.mirror_VALID m ≠ s.get F.mirror_VALID m || old.get F.mirror_SAMPLE m ≠ s.get F.mirror_SAMPLE m then
      { s with ver := { s.ver with mirrors := putD 0 s.ver.mirrors m 0 } }
    else s) s

/-- Unit ACTIONS passes its COMMIT check (R158). -/
def actionsOk (us : List Nat) (s : State) : Bool :=
  let g := s.eff us
  (List.range 64).all fun m =>
    let d := g F.mirror_DEST m
    let t := g F.mirror_TRUNC m
    g F.mirror_VALID m == 0 || (refOk d && 2 ≤ refType d && (t == 0 || (64 ≤ t && t ≤ 10240)))

end Sys2Proof.Machine
end

