-- ==== Sys2Proof/Machine/Gates.lean ====
section
/-! DEFINITION. Machine/Gates.lean: the state a front port holds beside its objects, and its gate control list (R76 to
R78, R242). -/

namespace Sys2Proof.Machine

open Sys2Proof

/-- The gate list of a port whose gates do not follow a list: all gates open. -/
def noGates : GateList := { en := false, base := 0, cycle := 1000000, entries := [] }

/-- What a front port holds after reset. -/
def portDefault : PortSt :=
  { since := 0, closing := false, pauses := [], fcSent := 0, fcDue := none, verTries := 0,
    verDue := 0, gates := noGates, gateCur := 0, gateStart := 0, gatePend := none, gateHold := false, loop := [] }

/-- What a front port holds beside its objects. -/
def State.port (s : State) (p : Nat) : PortSt := lookD portDefault s.ports p

/-- A front port's own state set. -/
def State.setPort (s : State) (p : Nat) (v : PortSt) : State := { s with ports := putD portDefault s.ports p v }

/-- The gate list that the live gate objects of a port give. -/
def gateList (p : Nat) (s : State) : GateList :=
  if s.on F.gateCfg_GATE_EN p then
    { en := true,
      base := s.get F.gateCfg_BASE_SEC p * 10 ^ 9 + s.get F.gateCfg_BASE_NS p,
      cycle := s.get F.gateCfg_CYCLE_TIME p,
      entries := (List.range (s.get F.gateCfg_LIST_LEN p)).map fun e =>
        (s.get F.gateEntry_GATES (p * 256 + e), s.get F.gateEntry_OP (p * 256 + e),
         s.get F.gateEntry_INTERVAL (p * 256 + e)) }
  else noGates

/-- The entries of a list as they hold within a cycle: each with its start, its duration, its gates and its OP. The last
entry holds to the end of the cycle, and the list is cut there (R77). -/
def entrySpans (cycle : Nat) : Nat → List (Nat × Nat × Nat) → List (Nat × Nat × Nat × Nat)
  | _, [] => []
  | t, (g, op, d) :: es =>
    if cycle ≤ t then []
    else if es.isEmpty then [(t, cycle - t, g, op)]
    else (t, min d (cycle - t), g, op) :: entrySpans cycle (t + d) es

/-- The spans of a gate list. -/
def GateList.spans (l : GateList) : List (Nat × Nat × Nat × Nat) := entrySpans l.cycle 0 l.entries

/-- The place within the cycle of a ToD in ns, for a list that started at a ToD. -/
def cyclePos (l : GateList) (start now : Nat) : Nat :=
  if l.cycle = 0 then 0 else (((now : Int) - start) % (l.cycle : Int)).toNat

/-- The index of the entry that holds at a place in the cycle. -/
def entryAt (l : GateList) (pos : Nat) : Nat := ((l.spans.takeWhile fun e => e.1 + e.2.1 ≤ pos).length)

/-- Entry e takes hold: its gates apply; SET_AND_HOLD holds the preemptable MAC for the entry, any other OP ends a hold
(R77). -/
def enterEntry (p e : Nat) (s : State) : State :=
  let x := s.port p
  s.setPort p { x with gateCur := e, gateHold := (x.gates.entries[e]?.getD (0, 0, 0)).2.1 == 1 }

/-- The waiting list of a port takes effect at its change time: it starts at entry 0 (R76). -/
def applyPending (p : Nat) (s : State) : State :=
  match (s.port p).gatePend with
  | none => s
  | some (t, l) =>
    let s := s.setPort p { s.port p with gates := l, gateStart := t, gatePend := none, gateHold := false }
    (enterEntry p 0 s).put F.portStatus_GATE_PENDING p 0

/-- The entry that the ToD gives takes hold (R77, R242). -/
def gateFollow (p : Nat) (s : State) : State :=
  let x := s.port p
  if x.gates.en then enterEntry p (entryAt x.gates (cyclePos x.gates x.gateStart s.todNs)) s else s

/-- A COMMIT that changes a gate field: the new list waits for its change time. T is the commit time plus 10 µs; the change
time is the base time, or the first base + N × CYCLE_TIME that reaches T (R76). A list with GATE_EN 0 has no base time and
no cycle (R61), so its gates open at once. DEDUCED, log entry 19. -/
def gateCommit (p : Nat) (s : State) : State :=
  let l := gateList p s
  if l.en then
    let t := s.todNs + 10000
    let at_ := if t ≤ l.base then l.base else l.base + ceilDiv (t - l.base) l.cycle * l.cycle
    (s.setPort p { s.port p with gatePend := some (at_, l) }).put F.portStatus_GATE_PENDING p 1
  else
    let x := s.port p
    (s.setPort p { x with gates := l, gateCur := 0, gatePend := none, gateHold := false }).put
      F.portStatus_GATE_PENDING p 0

/-- GATE_LIST_CHANGE (R76). -/
def gateListChangeDo (p : Nat) (s : State) : State :=
  match (s.port p).gatePend with
  | some (t, _) => if t ≤ s.todNs then applyPending p s else s
  | none => s

/-- The gate of class t is open on a port now. -/
def gateOpen (p t : Nat) (s : State) : Bool :=
  let x := s.port p
  if x.gates.en then bit (x.gates.entries[x.gateCur]?.getD (0xFF, 0, 0)).1 t else true

/-- The open runs of class t over spans, in order: the time until the first span that closes the gate. -/
def openRun (t : Nat) : List (Nat × Nat × Nat × Nat) → Nat
  | [] => 0
  | (_, d, g, _) :: es => if bit g t then d + openRun t es else 0

/-- Time from now to the close of the open gate of class t; none where it never closes. -/
def timeToClose (p t : Nat) (s : State) : Option Nat :=
  let x := s.port p
  if !x.gates.en then none
  else
    let sp := x.gates.spans
    if sp.all fun e => bit e.2.2.1 t then none
    else
      let pos := cyclePos x.gates x.gateStart s.todNs
      let i := entryAt x.gates pos
      let cur := sp[i]?.getD (0, 0, 0, 0)
      some (cur.1 + cur.2.1 - pos + openRun t (sp.drop (i + 1) ++ sp))

/-- The longest open window of class t per cycle in ns, windows across the cycle end included (R78); none where the gate
never closes. -/
def longestWindow (p t : Nat) (s : State) : Option Nat :=
  let l := (s.port p).gates
  if !l.en then none
  else
    let sp := l.spans
    if sp.all fun e => bit e.2.2.1 t then none
    else some ((List.range sp.length).foldl (fun m i => max m (openRun t (sp.drop i ++ sp.take i))) 0)

/-- Every port's gates after a step of the ToD: a waiting list that a forward step passes over takes effect, and the
entry of the new ToD holds (R242). -/
def gatesAfterStep (s : State) : State :=
  s.ports.foldl (fun s e => gateFollow e.1 (gateListChangeDo e.1 s)) s

end Sys2Proof.Machine
end

