-- ==== Sys2Proof/Machine/Fold.lean ====
section
/-! DEFINITION. Machine/Fold.lean: frames and queues, the fold's cells and carving, requesters, quotas, XOFF, push-out
(chapter 7). -/

namespace Sys2Proof.Machine

open Sys2Proof

/-! ## Frames and queues -/

/-- The frame of an id. -/
def State.frame (s : State) (id : Nat) : Option Frame := s.frames.find? (·.id == id)

/-- A frame replaced in its place. -/
def State.setFrame (s : State) (f : Frame) : State :=
  { s with frames := s.frames.map fun g => if g.id == f.id then f else g }

/-- A frame gone. -/
def State.dropFrame (s : State) (id : Nat) : State := { s with frames := s.frames.filter fun g => g.id != id }

/-- A frame put behind all others: a queue's order is the order of the list. -/
def State.pushFrame (s : State) (f : Frame) : State := { s.dropFrame f.id with frames := s.frames.filter (·.id != f.id) ++ [f] }

/-- The frames of a queue, head first. -/
def State.queue (s : State) (q : Nat) : List Frame := s.frames.filter (·.loc == .queue q)

/-- The egress port of a queue (R11, R168). -/
def queuePort (q : Nat) : Nat := if q < 65536 then q / 64 else 1024 + (q - 65536) / 64

/-- Queue k of an egress port (R11, R168). -/
def portQueue (p k : Nat) : Nat := if p < 1024 then p * 64 + k else 65536 + (p - 1024) * 64 + k

/-- The queues of a port that hold frames, rising. -/
def busyQueues (p : Nat) (s : State) : List Nat :=
  ((rangeFrom (portQueue p 0) 64).filter fun q => s.frames.any (·.loc == .queue q))

/-- Q_BU and Q_FRAMES of a queue (Table FB-9). -/
def queueBu (q : Nat) (s : State) : Nat := ((s.queue q).map (·.charge)).foldl (· + ·) 0
def queueFrames (q : Nat) (s : State) : Nat := (s.queue q).length

/-! ## Pools and cells (Table FB-2, R172 to R176) -/

/-- Bytes of a cell, cells of a block and the index stride of a block, by pool. -/
def cellSize (p : Nat) : Nat := [128, 512, 2048, 10240].getD p 0
def blockCells (p : Nat) : Nat := [8192, 2048, 512, 102].getD p 0
def blockStride (p : Nat) : Nat := [8192, 2048, 512, 128].getD p 1

/-- The allocated cell offsets of a block, rising. -/
def State.blockUsed (s : State) (b : Nat) : List Nat := lookD [] s.fold.used b

/-- The pool that owns a block now; every block is pool B during an override (R178). -/
def blockPool (b : Nat) (s : State) : Nat := if s.fold.override then 1 else s.get F.carve_LIVE_POOL b

/-- A block's free cells are open to allocation: its LIVE_POOL is its live POOL (R170). -/
def blockOpen (b : Nat) (s : State) : Bool := s.fold.override || s.get F.carve_LIVE_POOL b == s.get F.carve_POOL b

/-- A block is DRAINING (Table FB-3). -/
def draining (b : Nat) (s : State) : Bool := !blockOpen b s && !(s.blockUsed b).isEmpty

/-- The first number from n on that a rising list lacks. -/
def firstGap : List Nat → Nat → Nat
  | [], n => n
  | x :: xs, n => if x == n then firstGap xs (n + 1) else n

/-- A number put into a rising list. -/
def insRising (x : Nat) : List Nat → List Nat
  | [] => [x]
  | y :: ys => if x < y then x :: y :: ys else y :: insRising x ys

def State.setBlockUsed (s : State) (b : Nat) (us : List Nat) : State :=
  { s with fold := { s.fold with used := putD [] s.fold.used b us } }

/-- The lowest free cell of a pool taken (R172). -/
def allocCell (pool : Nat) (s : State) : Option ((Nat × Nat) × State) :=
  match (List.range 256).find? fun b =>
      blockPool b s == pool && blockOpen b s && (s.blockUsed b).length < blockCells pool with
  | none => none
  | some b =>
    let i := firstGap (s.blockUsed b) 0
    some ((pool, b * blockStride pool + i),
      perfEvent 0x0A 0x01 pool 1 (s.setBlockUsed b (insRising i (s.blockUsed b))))

/-- A cell returned. -/
def freeCell (c : Nat × Nat) (s : State) : State :=
  let b := c.2 / blockStride c.1
  s.setBlockUsed b ((s.blockUsed b).filter (· != c.2 % blockStride c.1))

def freeCells (cs : List (Nat × Nat)) (s : State) : State := cs.foldl (fun s c => freeCell c s) s

/-- Free cells of a pool (Table FB-10). -/
def cellsFree (pool : Nat) (s : State) : Nat :=
  ((List.range 256).map fun b =>
    if blockPool b s == pool && blockOpen b s then blockCells pool - (s.blockUsed b).length else 0).foldl (· + ·) 0

/-- n cells of pool B, in order. -/
def allocB : Nat → State → Option (List (Nat × Nat) × State)
  | 0, s => some ([], s)
  | n + 1, s =>
    match allocCell 1 s with
    | none => none
    | some (c, s) => (allocB n s).map fun r => (c :: r.1, r.2)

/-- The pool of a frame's first cell (R175). -/
def firstPool (p : Nat) : Nat := if p ≤ 128 then 0 else if p ≤ 512 then 1 else if p ≤ 2048 then 2 else 3

/-- The pools tried in order, one SPILLS for each found empty (R175). -/
def tryPools : List Nat → State → Option (List (Nat × Nat)) × State
  | [], s => (none, s)
  | x :: xs, s =>
    match allocCell x s with
    | some (c, s) => (some [c], s)
    | none => tryPools xs (s.inc F.poolStatus_SPILLS x)

/-- cells(f): the pool choice of R175 for a predicted length. DEDUCED, log entry 39. -/
def chooseCells (p : Nat) (s : State) : Option (List (Nat × Nat)) × State :=
  let f := firstPool p
  match tryPools (rangeFrom f (4 - f)) s with
  | (some cs, s) => (some cs, s)
  | (none, s) =>
    let n := ceilDiv p 512
    if n + s.get F.foldCfg_CHAIN_RESERVE 0 ≤ cellsFree 1 s then
      match allocB n s with
      | some (cs, s) => (some cs, s)
      | none => (none, s)
    else (none, s)

/-- The bitmap words that show cells free are evaluated (R172, Table FA-2). -/
def mapWords (cells : List (Nat × Nat)) (s : State) : State × Bool :=
  evalWords (instOf 0x0A 257) (cells.map fun c => c.1 * 2 ^ 16 + c.2 / 64) s

/-- The links from each cell of a frame to its next are evaluated. -/
def linkWords (cells : List (Nat × Nat)) (s : State) : State × Bool :=
  evalWords (instOf 0x0A 256) (cells.dropLast.map fun c => c.1 * 2 ^ 22 + c.2) s

/-- Bytes that a frame's cells hold. -/
def cellRoom (cs : List (Nat × Nat)) : Nat := (cs.map fun c => cellSize c.1).foldl (· + ·) 0

/-- FOLD_CHAIN_CELL: one further pool B cell linked to a frame (R176); none where pool B is empty. DEDUCED, log entry 39. -/
def chainCell (f : Frame) (s : State) : Option ((Nat × Nat) × State) :=
  (allocCell 1 s).map fun r => (r.1, r.2.setFrame { f with cells := f.cells ++ [r.1] })

/-- The cells a frame of n bytes still needs beside those it holds. -/
def chainNeed (f : Frame) (n : Nat) : Nat := ceilDiv (n - cellRoom f.cells) 512

/-- The chained cells of the bytes received linked, as many as pool B gives; whether it gave all (R176). -/
def chainAll : Nat → Frame → State → Bool × State
  | 0, _, s => (true, s)
  | n + 1, f, s =>
    match allocCell 1 s with
    | none => (false, s)
    | some (c, t) =>
      let f := { f with cells := f.cells ++ [c] }
      chainAll n f (t.setFrame f)

/-! ## Requesters (Table FB-6, R180) -/

/-- The ingress priority of a front-port frame (R180). -/
def ingressPrio (p : Nat) (x : Parse) (bs : List Byte) (s : State) : Nat :=
  match x.layers.find? fun m => m.1 == 2 || m.1 == 3 with
  | none => s.get F.prioMap_DEFAULT_PRIO p
  | some m =>
    let pcp := byteAt (headerWindow bs) (m.2.1 + 2) / 32
    s.get F.prioMap_PCP_MAP p / 2 ^ (3 * pcp) % 8

/-- The BU of a length. -/
def buOf (n : Nat) : Nat := ceilDiv n 128

/-- What a requester uses of the shared space (R183). -/
def sharedUse (r used : Nat) (s : State) : Nat := used - s.get F.reqQuota_RESERVE r

/-- SHARED_FREE, signed. -/
def sharedFree (s : State) : Int := toSigned 23 (s.get F.foldStatus_SHARED_FREE 0)

/-- SHARED_FREE set; falling to 0 or below is a perf event (Table TM-14). -/
def setSharedFree (x : Int) (s : State) : State :=
  let s := if 0 < sharedFree s && x ≤ 0 then perfEvent 0x0A 0x02 0 1 s else s
  s.put F.foldStatus_SHARED_FREE 0 (ofSigned 23 x)

/-- The levels of R185. -/
def onLevel (r : Nat) (s : State) : Nat := min (s.get F.reqQuota_XOFF_WM r) (s.get F.reqQuota_LIMIT r)
def offLevel (r : Nat) (s : State) : Nat :=
  min (s.get F.reqQuota_XON_WM r)
    (s.get F.reqQuota_LIMIT r - (s.get F.reqQuota_XOFF_WM r - s.get F.reqQuota_XON_WM r))

/-- TX_XOFF of a front port shows the XOFF state of its eight requesters (R185, Table EP-11). -/
def showXoff (r : Nat) (x : Bool) (s : State) : State :=
  if r < 8192 then
    s.put F.portStatus_TX_XOFF (r / 8) (setBit (s.get F.portStatus_TX_XOFF (r / 8)) (r % 8) x)
  else s

/-- A change of USED, HDRM_USED or LIMIT: OVER_QUOTA with its count (R184) and XOFF (R185). -/
def reqChanged (r : Nat) (s : State) : State :=
  let used := s.get F.reqStatus_USED r
  let quotaOver := s.get F.reqQuota_LIMIT r ≤ used
  let was := s.on F.reqStatus_OVER_QUOTA r
  let s := s.put F.reqStatus_OVER_QUOTA r (b2n quotaOver)
  let s := if quotaOver && !was then s.inc F.reqStatus_OVER_EV r else s
  let setX (b : Bool) (s : State) : State := showXoff r b (s.put F.reqStatus_XOFF r (b2n b))
  if s.on F.reqQuota_LOSSLESS r then
    if 0 < s.get F.reqStatus_HDRM_USED r || onLevel r s ≤ used then setX true s
    else if used ≤ offLevel r s then setX false s
    else s
  else if s.on F.reqStatus_XOFF r then setX false s
  else s

/-- USED takes a value, and SHARED_FREE follows the requester's use of the shared space. -/
def setUsed (r n : Nat) (s : State) : State :=
  let old := s.get F.reqStatus_USED r
  let s := setSharedFree (sharedFree s + (sharedUse r old s : Int) - (sharedUse r n s : Int)) s
  s.put F.reqStatus_USED r n

/-- A charge of c released: headroom is refilled first (R183). -/
def releaseBu (r c : Nat) (s : State) : State :=
  let h := min c (s.get F.reqStatus_HDRM_USED r)
  let s := s.put F.reqStatus_HDRM_USED r (s.get F.reqStatus_HDRM_USED r - h)
  reqChanged r (setUsed r (s.get F.reqStatus_USED r - (c - h)) s)

/-- A charge raised at the tail, without any test (R180, R183). -/
def raiseBu (r c : Nat) (s : State) : State := reqChanged r (setUsed r (s.get F.reqStatus_USED r + c) s)

/-- A stored frame's cells and charge returned. -/
def releaseFrame (f : Frame) (s : State) : State := freeCells f.cells (releaseBu f.req f.charge s)

/-- REQ_QUOTA_LIMIT_WRITE (R184). -/
def limitWriteDo (r limit : Nat) (s : State) : State := reqChanged r (s.put F.reqQuota_LIMIT r limit)

/-! ## Admission (R182) -/

/-- The tests of R182. -/
def fitTest (r c : Nat) (s : State) : Bool :=
  let used := s.get F.reqStatus_USED r
  let excess := sharedUse r (used + c) s
  used + c ≤ s.get F.reqQuota_LIMIT r &&
    (excess == 0 || excess ≤ (sharedFree s).toNat * 2 ^ s.get F.reqQuota_ALPHA r / 128)

def needBu (r c : Nat) (s : State) : Nat :=
  let used := s.get F.reqStatus_USED r
  sharedUse r (used + c) s - sharedUse r used s

def roomTest (r c : Nat) (s : State) : Bool := (needBu r c s : Int) ≤ sharedFree s

/-- The egress port refuses new frames: FLUSH, DOWN, HOLD or DISABLED (R182, Table EP-12). Internal ports have no port
state and are never down. -/
def portShut (p : Nat) (s : State) : Bool :=
  p < 1024 && !([2, 3].contains (s.get F.portStatus_STATE p))

/-- The victims of a push-out in the order of R187: queues of rank 1 to k − 1, each from its tail, stopping a queue at a
frame charged to a LOSSLESS requester. -/
def victimOrder (p k : Nat) (s : State) : List Frame :=
  (rangeFrom 1 (k - 1)).flatMap fun j =>
    ((busyQueues p s).filter fun q => s.get F.queueAdm_PUSH_RANK q == j).flatMap fun q =>
      (s.queue q).reverse.takeWhile fun v => !s.on F.reqQuota_LOSSLESS v.req

/-- The state with some victims released. -/
def releaseAll (vs : List Frame) (s : State) : State := vs.foldl (fun s v => (releaseFrame v s).dropFrame v.id) s

/-- The least number of victims, up to 16, whose release makes room true and cells possible (R187). -/
def pushOutVictims (r c p : Nat) (vs : List Frame) (s : State) : Option (List Frame) :=
  ((List.range (min 16 vs.length)).map fun n => vs.take (n + 1)).find? fun v =>
    let t := releaseAll v s
    roomTest r c t && (chooseCells p t).1.isSome

/-- A frame of requester r dropped as DR_QUOTA: DROPS, and LOSSLESS_DROPS where its quota is lossless (R182). -/
def quotaDropped (r : Nat) (s : State) : State :=
  let s := s.inc F.reqStatus_DROPS r
  if s.on F.reqQuota_LOSSLESS r then s.inc F.reqStatus_LOSSLESS_DROPS r else s

/-- What an admission decides. -/
inductive Admission where
  | admitted (cells : List (Nat × Nat)) (victims : List Frame)
  | portDown
  | quota
  deriving DecidableEq, Repr

/-- Admission of a frame of predicted length P for requester r at egress port p, queue q (R182): the decision and the state
with its cells and charge taken. The victims of a push-out are released; their records are the caller's. -/
def admission (r len p q : Nat) (s : State) : Admission × State :=
  let c := buOf len
  if portShut p s then (.portDown, s)
  else
    let fit := fitTest r c s
    let room := roomTest r c s
    let lossless := s.on F.reqQuota_LOSSLESS r
    let hdrm := lossless && s.get F.reqStatus_HDRM_USED r + c ≤ s.get F.reqQuota_HEADROOM r
    let (cs, s) := if (fit && room) || hdrm then chooseCells len s else (none, s)
    match cs with
    | some cells =>
      if fit && room then (.admitted cells [], reqChanged r (setUsed r (s.get F.reqStatus_USED r + c) s))
      else (.admitted cells [], reqChanged r (s.put F.reqStatus_HDRM_USED r (s.get F.reqStatus_HDRM_USED r + c)))
    | none =>
      let empty := (fit && room) || hdrm
      let k := s.get F.queueAdm_PUSH_RANK q
      let vs := if fit && s.on F.foldCfg_PUSH_EN 0 && 0 < k then
          pushOutVictims r c len (victimOrder p k s) s else none
      match vs with
      | some vs =>
        let s := (releaseAll vs s).addSat F.foldStatus_PUSHOUTS 0 vs.length
        let (cs, s) := chooseCells len s
        (.admitted (cs.getD []) vs, reqChanged r (setUsed r (s.get F.reqStatus_USED r + c) s))
      | none =>
        let s := quotaDropped r s
        (.quota, if empty then s.inc F.poolStatus_POOL_EMPTY 1 else s)

/-! ## Carving (R170, R178) -/

/-- A block joins the pool of its live POOL. -/
def blockJoin (b : Nat) (s : State) : State := s.put F.carve_LIVE_POOL b (s.get F.carve_POOL b)

/-- A block whose live POOL has changed joins at once if it holds no allocated cell, and never during an override (R178). -/
def blockSettle (b : Nat) (s : State) : State :=
  if !s.fold.override && (s.blockUsed b).isEmpty then blockJoin b s else s

/-- CARVE_BLOCK_JOIN: the last allocated cell of a DRAINING block has been returned (R170). -/
def carveJoinDo (b : Nat) (s : State) : State :=
  if !blockOpen b s && (s.blockUsed b).isEmpty then blockJoin b s else s

/-- Every block's LIVE_POOL is B, or the override holds (R178). -/
def uniform (s : State) : Bool :=
  s.fold.override || (List.range 256).all fun b => s.get F.carve_LIVE_POOL b == 1

/-- The requesters whose quotas a store lists; the others have the reset values, with RESERVE and HEADROOM 0. -/
def quotaListed (s : State) : List Nat := dedupNat (s.listed .reqQuota ++ s.stagedListed .reqQuota)
where
  dedupNat : List Nat → List Nat
    | [] => []
    | x :: xs => x :: (dedupNat xs).filter (· != x)

/-- Σ RESERVE + Σ HEADROOM over the requesters listed. -/
def quotaTotal (g : Fld → Nat → Nat) (s : State) : Nat :=
  ((quotaListed s).map fun r => g F.reqQuota_RESERVE r + g F.reqQuota_HEADROOM r).foldl (· + ·) 0

/-- What a COMMIT of unit FOLD does beside making its settings live, from the settings before it: blocks whose POOL has
changed (R170), SHARED_BU and SHARED_FREE (R181), and each requester's levels. -/
def foldCommitted (old s : State) : State :=
  let s := (List.range 256).foldl (fun s b => blockSettle b s) s
  let total := 2097152 - quotaTotal s.get s
  let d : Int := (total : Int) - old.get F.foldStatus_SHARED_BU 0
  -- SHARED_FREE changes by the difference of SHARED_BU; a changed RESERVE moves a requester's own use of the shared space
  let s := setSharedFree (sharedFree s + d) (s.put F.foldStatus_SHARED_BU 0 total)
  (quotaListed s).foldl (fun s r => reqChanged r s) s

/-- Unit FOLD passes its COMMIT check (R171, R181). -/
def foldOk (us : List Nat) (s : State) : Bool :=
  let g := s.eff us
  let bBlocks := ((List.range 256).filter fun b => g F.carve_POOL b == 1).length
  bBlocks != 0 && g F.foldCfg_CHAIN_RESERVE 0 < bBlocks * 2048 &&
    ((quotaListed s).all fun r =>
      g F.reqQuota_XON_WM r < g F.reqQuota_XOFF_WM r &&
      (g F.reqQuota_LOSSLESS r == 0 || r < 8192) &&
      (g F.reqQuota_HEADROOM r == 0 || g F.reqQuota_LOSSLESS r == 1)) &&
    quotaTotal g s ≤ 2097152

end Sys2Proof.Machine
end

