-- ==== Sys2Proof/Machine/Sched.lean ====
section
/-! DEFINITION. Machine/Sched.lean: eligibility, weighted service, shapers and the calendar wheel, gates at selection,
policers, depth and delay sampling, and the COMMIT of unit SCHED (chapter 8). -/

namespace Sys2Proof.Machine

open Sys2Proof

/-! ## Shapers (R196) -/

/-- One byte in the unit of credits and buckets: 1 / 40,960,000 byte. One unit of RATE, 100 kb/s, gives 512 of them in a
nanosecond, and a bit of CREDIT (2^-16 byte) is 625. -/
def creditUnit : Nat := 40960000
def rateUnit : Nat := 512

/-- The shapers of queue q, class t of port p, and port p (Table SQ-1). -/
def classShaper (p t : Nat) : Nat := 66048 + p * 8 + t
def portShaper (p : Nat) : Nat := 74304 + p

/-- The port of a shaper. -/
def shaperPort (x : Nat) : Nat :=
  if x < 66048 then queuePort x else if x < 74304 then (x - 66048) / 8 else x - 74304

/-- CREDIT as refilled to now. A shaper with EN 0 gains none. DEDUCED, log entry 44. -/
def creditNow (x : Nat) (s : State) : Int :=
  let el := s.frc - lookD 0 s.sched.shLast x
  let c := lookD 0 s.sched.credit x
  if s.on F.shaper_EN x then
    min ((s.get F.shaper_BURST x * creditUnit : Nat) : Int) (c + ((s.get F.shaper_RATE x * rateUnit * el : Nat) : Int))
  else c

/-- CREDIT and LAST set. -/
def setCredit (x : Nat) (c : Int) (s : State) : State :=
  { s with sched := { s.sched with credit := putD 0 s.sched.credit x c, shLast := putD 0 s.sched.shLast x s.frc } }

def refill (x : Nat) (s : State) : State := setCredit x (creditNow x s) s

/-- A shaper whose credit is below 0 is entered in the slot of its eligible time. -/
def enterSlot (x : Nat) (s : State) : State :=
  let c := lookD 0 s.sched.credit x
  if c < 0 then
    let te := s.frc + ceilDiv c.natAbs (s.get F.shaper_RATE x * rateUnit)
    let now := s.frc / 64
    let d := ceilDiv te 64 - now
    s.puts x [(F.shaper_WAITING, 1), (F.shaper_SLOT, (now + min d 4095) % 4096)]
  else s

/-- b bytes charged to a shaper; b may be negative (R195). A shaper with EN 0 is not charged. -/
def chargeShaper (x : Nat) (b : Int) (s : State) : State :=
  if s.on F.shaper_EN x then
    let c := creditNow x s - b * (creditUnit : Int)
    enterSlot x (setCredit x (min c ((s.get F.shaper_BURST x * creditUnit : Nat) : Int)) s)
  else s

/-- An entity is eligible for its shaper. -/
def shaperOk (x : Nat) (s : State) : Bool := !s.on F.shaper_EN x || !s.on F.shaper_WAITING x

/-! ## Classes and queues -/

/-- The class whose live range holds a queue (Table SQ-2). -/
def rangeClass (q : Nat) (s : State) : Option Nat :=
  let p := queuePort q
  (List.range 8).find? fun t =>
    let f := s.get F.classCfg_FIRST_Q (p * 8 + t)
    f ≤ q % 64 && q % 64 < f + s.get F.classCfg_NQ (p * 8 + t)

/-- The class in which a queue is served (R208). -/
def servedClass (q : Nat) (s : State) : Option Nat :=
  if s.on F.queueCfg_MOVING q then some (s.get F.queueCfg_CUR_TC q) else rangeClass q s

/-- A queue that is empty follows the live ranges; one that fills takes its class (R208). DEDUCED, log entry 105. -/
def followRange (q : Nat) (s : State) : State :=
  let s := s.put F.queueCfg_MOVING q 0
  match rangeClass q s with
  | some t => s.put F.queueCfg_CUR_TC q t
  | none => s

/-- The head frame may start: it goes cut-through, or its tail has been checked (R193). -/
def mayStart (f : Frame) : Bool := f.cut || f.ended

/-- The receive ring of a frame in queue q of port 1024 (R298). -/
def hostRing (f : Frame) (s : State) : Nat :=
  let q := f.qnum - 65536
  s.get F.queueMap_BASE_RING q + hashPick (rotl32 f.hash 24) (s.get F.queueMap_NRINGS q)

/-- A frame waits for descriptors of a ring (R299). -/
def ringWaits (r : Nat) (s : State) : Bool := s.frames.any fun f =>
  match f.loc with
  | .hostWait x _ => x == r
  | _ => false

/-- The drove holds a credit for a port: it has as many as Config fixes, one for each frame that waits for dispatch. DESIGN
CHOICE, log entry 48. -/
def droveCredit (p : Nat) (s : State) : Bool :=
  (s.frames.filter fun f => f.loc == .mac && f.inPort == p).length < Config.droveCredits p + 1

/-- A queue is eligible (R193); of port 1024, only while no frame waits for its head frame's ring (R299). -/
def queueEligible (q : Nat) (s : State) : Bool :=
  match s.queue q with
  | f :: _ => mayStart f && shaperOk q s && !(queuePort q == 1024 && ringWaits (hostRing f s) s)
  | [] => false

/-- A length of a frame as a truncated copy has it (Table AV-10). -/
def truncLen (f : Frame) (n : Nat) : Nat := if f.trunc == 0 then n else min f.trunc n

/-- The egress length b of a frame that waits (R195), of a truncated copy too: the bytes sent correct it. -/
def egressLen (f : Frame) : Nat := (((if f.ended then f.bytes.length else f.parse.pred : Nat) : Int) + f.growth).toNat

/-- The head frame of a queue. -/
def headOf (q : Nat) (s : State) : Option Frame := (s.queue q).head?

/-- The cost of length b at weight w (R194). -/
def wfqCost (b w : Nat) : Nat := ceilDiv (b * 4096) (max 1 w)

/-- Serial order of tags modulo 2^48. -/
def tagBefore (a b : Nat) : Bool := (b + 2 ^ 48 - a % 2 ^ 48) % 2 ^ 48 < 2 ^ 47 && a % 2 ^ 48 != b % 2 ^ 48
def tagMax (a b : Nat) : Nat := if tagBefore a b then b else a

/-- The entity with the least tag, the first on ties. -/
def leastTag : List (Nat × Nat) → Option Nat
  | [] => none
  | (x, a) :: es =>
    match es.foldl (fun (m : Nat × Nat) e => if tagBefore e.2 m.2 then e else m) (x, a) with
    | (y, _) => some y

/-- The tag of an entity with its present FINISH and weight for the frame it would send: its start plus that frame's cost, at
the weight of the computation (R194, R208). -/
def entityTag (finish weight : Nat) (f : Option Frame) (m : List (Nat × Active)) (x : Nat) : Nat :=
  let a := lookD ⟨finish, weight, 0⟩ m x
  a.start + (match f with
    | some f => wfqCost (egressLen f) a.weight
    | none => 0)

/-- The tag of a queue. -/
def queueTag (q : Nat) (s : State) : Nat :=
  entityTag (s.get F.queueCfg_FINISH q) (s.get F.queueCfg_WEIGHT q) (headOf q s) s.sched.qStart q

/-- An active entity whose tag is brought up to date for the frame it would send: a tag already computed for that frame stands,
another takes the present weight (R208); one that has become active starts at v. -/
def tagEntity (v weight : Nat) (f : Option Frame) (m : List (Nat × Active)) (x : Nat) : List (Nat × Active) :=
  let id := (f.map (·.id)).getD 0
  match m.find? (·.1 == x) with
  | none => insKey x ⟨v, weight, id⟩ m
  | some (_, a) => if a.frame == id then m else insKey x ⟨a.start, weight, id⟩ m

/-- The eligible queues that class t of port p serves, rising. -/
def classQueues (p t : Nat) (s : State) : List Nat :=
  (busyQueues p s).filter fun q => servedClass q s == some t && queueEligible q s

/-- The queue a class would serve. -/
def classPick (p t : Nat) (s : State) : Option Nat := leastTag ((classQueues p t s).map fun q => (q, queueTag q s))

/-- The frame a class would send. -/
def classFrame (p t : Nat) (s : State) : Option Frame := (classPick p t s).bind fun q => headOf q s

/-! ## Ports, pause, preemption, gates -/

/-- Port p is the data pipe of a flock octet (R262). -/
def isPipe (p : Nat) (s : State) : Bool := p < 1024 && p % 8 == 0 && s.get F.octetCfg_MODE (p / 8) == 2

/-- The live transmit or receive page of an octet: the CONN index of its slot 0. -/
def connBase (o page : Nat) : Nat := o * 256 + page * 128

/-- The slots of an octet's live transmit page with a TX_TYPE. -/
def txSlots (o ty : Nat) (s : State) : List Nat :=
  let b := connBase o (s.get F.linkStatus_TX_PAGE o)
  (List.range 128).filter fun k => s.get F.conn_TX_TYPE (b + k) == ty

/-- The rate of a front port in bits per ns, as a fraction: its Ethernet speed, or, for a data pipe, its TX data slots ×
2,048 bits / T_SF, where T_SF is 5,463,168,000 / 34,815,575 ns at 212.5 Gb/s lanes and twice that at 106.25 (R252,
R262). -/
def portRate (p : Nat) (s : State) : Nat × Nat :=
  if isPipe p s then
    ((txSlots (p / 8) 1 s).length * 2048 * 34815575,
     if s.get F.laneCfg_RATE p == 4 then 2 * 5463168000 else 5463168000)
  else ([0, 10, 25, 50, 100, 200, 400, 800, 1600].getD (s.get F.portCfg_SPEED p) 0, 1)

/-- The time of n bits at a port's rate in ns, rounded up; 0 at rate 0. -/
def bitTime (p n : Nat) (s : State) : Nat :=
  let r := portRate p s
  if r.1 == 0 then 0 else ceilDiv (n * r.2) r.1

/-- The lanes of a front port: those of its octet for a data pipe, else NLANES from its own on (R59, R262). -/
def frontLanes (p : Nat) (s : State) : List Nat :=
  if isPipe p s then octetLanes (p / 8) else rangeFrom p (2 ^ s.get F.portCfg_NLANES p)

/-- The transmitters of a port run on all its lanes (R38, R54); internal ports have none. -/
def portDrives (p : Nat) (s : State) : Bool := 1024 ≤ p || (frontLanes p s).all fun l => !txIdle l s

/-- A port sends data: UP and not about to flush (Table EP-12, R84), its transmitters running; internal ports have no
state. -/
def portSends (p : Nat) (s : State) : Bool :=
  1024 ≤ p || (s.get F.portStatus_STATE p == 2 && !(s.port p).closing && portDrives p s)

/-- Preemption is active (R74). -/
def preemptActive (p : Nat) (s : State) : Bool := p < 1024 && s.on F.portStatus_PREEMPT_ACTIVE p

/-- Class t is preemptable on a port. -/
def preemptable (p t : Nat) (s : State) : Bool :=
  preemptActive p s && bit (s.get F.portPreempt_PREEMPTABLE_TC p) t

/-- What the gate test of R78 says. -/
inductive GateSays where
  | start | drop | wait
  deriving DecidableEq, Repr

/-- The gate test for a frame of class t at port p now. -/
def gateTest (p t : Nat) (f : Frame) (s : State) : GateSays :=
  if 1024 ≤ p || !(s.port p).gates.en then .start
  else
    let bytes := if preemptable p t s then 64 * (1 + s.get F.portPreempt_ADD_FRAG p) + 20 else egressLen f + 20
    let r := portRate p s
    let fits (ns : Nat) : Bool := bytes * 8 * r.2 ≤ ns * r.1
    let close : Bool := match timeToClose p t s with
      | some c => fits c
      | none => true
    if gateOpen p t s && close then .start
    else match longestWindow p t s with
      | some w => if fits w then .wait else .drop
      | none => .wait

/-- Class t is held by a received pause (R201). -/
def classPaused (p t : Nat) (s : State) : Bool := bit (s.get F.portSched_PAUSED_TC p) t

/-- Class t of a port has a frame that only the gate test may hold. -/
def classReady (p t : Nat) (s : State) : Bool :=
  !classPaused p t s && shaperOk (classShaper p t) s && !(classQueues p t s).isEmpty

/-- Class t is eligible (R193), whatever the MAC. -/
def classEligible (p t : Nat) (s : State) : Bool :=
  classReady p t s &&
  match classFrame p t s with
  | some f => gateTest p t f s == .start
  | none => false

/-- The classes of a MAC of a port (R200). -/
def macClasses (p : Nat) (express : Bool) (s : State) : List Nat :=
  if preemptActive p s then (List.range 8).filter fun t => preemptable p t s != express
  else if express then List.range 8 else []

/-! ## Frame preemption on the sending side (R75, R77, R78) -/

/-- The frame in transmission on the preemptable MAC of a port. -/
def preemptFrame (p : Nat) (s : State) : Option Frame := s.frames.find? fun f => f.loc == .tx p false

/-- The express MAC of a port transmits. -/
def expressBusy (p : Nat) (s : State) : Bool := s.frames.any fun f => f.loc == .tx p true

/-- A SET_AND_HOLD entry holds the preemptable MAC; with preemption inactive it does not (R77). -/
def macHeld (p : Nat) (s : State) : Bool := (s.port p).gateHold && preemptActive p s

/-- The minimum fragment in bytes (Table EP-7). -/
def minFragment (p : Nat) (s : State) : Nat := 64 * (1 + s.get F.portPreempt_ADD_FRAG p)

/-- The bytes of the present fragment of a frame that have left by an FRC. -/
def fragmentBytes (p now : Nat) (f : Frame) (s : State) : Nat :=
  match f.fragFrc with
  | none => 0
  | some t => let r := portRate p s; (now - t) * r.1 / (8 * r.2)

/-- Nothing of a resumed fragment has left. -/
def notResumed (f : Frame) (s : State) : Bool := f.frags != 0 && f.fragFrc == some s.frc

/-- The place of the present fragment at which the frame can be interrupted in this nanosecond: the first at which the
fragment and the rest are both at least the minimum fragment (R75). DEDUCED, log entry 111. -/
def fragmentPoint (p : Nat) (f : Frame) (s : State) : Option Nat :=
  let m := minFragment p s
  let at_ := max m (fragmentBytes p s.frc f s)
  if at_ ≤ fragmentBytes p (s.frc + 1) f s && f.fragSent + at_ + m ≤ f.sendBody.length + 4 then some at_ else none

/-- The preemptable MAC stands, or can be interrupted now. -/
def canInterrupt (p : Nat) (s : State) : Bool :=
  match preemptFrame p s with
  | none => true
  | some f => f.fragFrc.isNone || notResumed f s || (fragmentPoint p f s).isSome

/-- The preemptable frame in transmission stops after n bytes of its present fragment (R75, R78). -/
def haltFrame (n : Nat) (f : Frame) (s : State) : State :=
  if f.fragFrc.isNone then s
  else if notResumed f s then s.setFrame { f with fragFrc := none }
  else s.setFrame { f with frags := f.frags + 1, fragSent := f.fragSent + n, fragFrc := none }

/-- An express frame interrupts the preemptable frame in transmission (R75). -/
def interrupt (p : Nat) (s : State) : State :=
  match preemptFrame p s with
  | some f => haltFrame ((fragmentPoint p f s).getD 0) f s
  | none => s

/-- What the preemptable MAC does once gates, hold or express traffic have changed: a hold or a closed gate stops its frame,
which resumes when neither holds and the express MAC is free (R75, R77, R78). -/
def settlePreempt (p : Nat) (s : State) : State :=
  match preemptFrame p s with
  | none => s
  | some f =>
    if preemptActive p s && (macHeld p s || !gateOpen p f.selClass s) then haltFrame (fragmentBytes p s.frc f s) f s
    else if f.fragFrc.isNone && !expressBusy p s then s.setFrame { f with fragFrc := some s.frc }
    else s

/-- A frame in transmission that is not preempted runs past the close of its gate (R78). -/
def markShut (p : Nat) (s : State) : State :=
  (s.frames.filter fun f => (f.loc == .tx p true || (f.loc == .tx p false && !preemptActive p s)) &&
    !gateOpen p f.selClass s).foldl (fun s f => s.setFrame { f with gateShut := true }) s

/-- A MAC of a port can start a frame (R75, R77, R200): without preemption the port sends none; with it, the express MAC sends
none and can interrupt what the other sends, and the preemptable MAC starts only where neither sends and no hold stops it. -/
def macFree (p : Nat) (express : Bool) (s : State) : Bool :=
  !expressBusy p s &&
    if preemptActive p s && express then canInterrupt p s else (preemptFrame p s).isNone && !macHeld p s

/-! ## Selection (R193, R194) -/

/-- Start tags of the queues and classes of a port brought up to date: an entity that has become active starts at the
serial maximum of its level's time and its finish tag; one that is no longer active has none (R194). -/
def refreshActive (p : Nat) (s : State) : State :=
  let qs := busyQueues p s
  let s := { s with sched := { s.sched with
    qStart := s.sched.qStart.filter fun e => queuePort e.1 != p || (qs.contains e.1 && queueEligible e.1 s) } }
  let s := qs.foldl (fun s q =>
    if queueEligible q s then
      match servedClass q s with
      | some t =>
        let v := tagMax (s.get F.classCfg_V_QUEUE (p * 8 + t)) (s.get F.queueCfg_FINISH q)
        { s with sched := { s.sched with
          qStart := tagEntity v (s.get F.queueCfg_WEIGHT q) (headOf q s) s.sched.qStart q } }
      | none => s
    else s) s
  (List.range 8).foldl (fun s t =>
    let c := p * 8 + t
    if classEligible p t s && !s.on F.classCfg_STRICT c then
      let v := tagMax (s.get F.portSched_V_CLASS p) (s.get F.classCfg_C_FINISH c)
      { s with sched := { s.sched with
        cStart := tagEntity v (s.get F.classCfg_C_WEIGHT c) (classFrame p t s) s.sched.cStart c } }
    else { s with sched := { s.sched with cStart := dropKey s.sched.cStart c } }) s

/-- The gates of a port have moved: frames in transmission and the classes that become active follow (R77, R78, R194). -/
def gatesMoved (p : Nat) (s : State) : State := refreshActive p (settlePreempt p (markShut p s))

/-- GATE_LIST_CHANGE and its effects (R76, R78). -/
def gateListChange (p : Nat) (s : State) : State := gatesMoved p (gateListChangeDo p s)

/-- GATE_ENTRY_CHANGE and its effects (R77, R78). -/
def gateEntryChange (p : Nat) (s : State) : State := gatesMoved p (gateFollow p s)

/-- Every port's gates after a step of the ToD, with their effects (R242). -/
def gatesStepped (s : State) : State := s.ports.foldl (fun s e => gatesMoved e.1 s) (gatesAfterStep s)

/-- The class tag of class t. -/
def classTag (p t : Nat) (s : State) : Nat :=
  let c := p * 8 + t
  entityTag (s.get F.classCfg_C_FINISH c) (s.get F.classCfg_C_WEIGHT c) (classFrame p t s) s.sched.cStart c

/-- The sink of a port holds a credit for a frame (R199): of port 1025 the drove, with as many as Config fixes. The host rings
hold back single queues, the crook its own row, and the export path takes every frame at once. DESIGN CHOICE, log entry
48. -/
def sinkCredit (p : Nat) (s : State) : Bool := p != 1025 || droveCredit 1025 s

/-- select(p, mac) of R193: the class and its frame. -/
def select (p : Nat) (express : Bool) (s : State) : Option (Nat × Frame) :=
  if !portSends p s || !macFree p express s || !shaperOk (portShaper p) s || !sinkCredit p s then none
  else
    let e := (macClasses p express s).filter fun t => classEligible p t s
    let strict := e.filter fun t => s.on F.classCfg_STRICT (p * 8 + t)
    let t := match strict.getLast? with
      | some t => some t
      | none => leastTag (e.map fun t => (t, classTag p t s))
    t.bind fun t => (classFrame p t s).map fun f => (t, f)

/-- A class of the MAC whose frame can never fit a window (R78). -/
def overrun (p : Nat) (express : Bool) (s : State) : Option Frame :=
  if !portSends p s || !macFree p express s || !shaperOk (portShaper p) s then none
  else (macClasses p express s).findSome? fun t =>
    if classReady p t s then
      match classFrame p t s with
      | some f => if gateTest p t f s == .drop then some f else none
      | none => none
    else none

/-! ## Sampling (R209, R210) -/

/-- A minimum and maximum pair with their last value and sampled bit takes a sample. -/
def sampleStats (q x : Nat) (mn mx lst smp : Fld) (s : State) : State :=
  let x := min lst.max x
  let first := !s.on smp q
  let s := s.put lst q x
  let s := if first || x < s.get mn q then s.put mn q x else s
  let s := if first || s.get mx q < x then s.put mx q x else s
  s.put smp q 1

/-- The depth of a queue sampled. -/
def sampleDepth (q : Nat) (s : State) : State :=
  sampleStats q (queueBu q s) F.queueStats_DEPTH_MIN F.queueStats_DEPTH_MAX F.queueStats_DEPTH_LAST
    F.queueStats_DEPTH_SAMPLED s

/-- The bins of a histogram, BIN0 first. -/
def histBins : List Fld :=
  [F.queueHist_BIN0, F.queueHist_BIN1, F.queueHist_BIN2, F.queueHist_BIN3, F.queueHist_BIN4, F.queueHist_BIN5,
   F.queueHist_BIN6, F.queueHist_BIN7, F.queueHist_BIN8, F.queueHist_BIN9, F.queueHist_BIN10, F.queueHist_BIN11,
   F.queueHist_BIN12, F.queueHist_BIN13, F.queueHist_BIN14, F.queueHist_BIN15]

/-- The bin of a sojourn d with base b. -/
def histBin (linear : Bool) (b d : Nat) : Nat :=
  if linear then min 15 (d / max 1 b)
  else ((List.range 15).filter fun k => b * 2 ^ k ≤ d).length

/-- The sojourn of a frame selected now. -/
def sojourn (f : Frame) (s : State) : Nat := min 0xFFFFFFFF (s.frc - f.admFrc)

/-- A sojourn sampled at selection. -/
def sampleSojourn (q d : Nat) (s : State) : State :=
  let p := queuePort q
  let s := sampleStats q d F.queueStats_DELAY_MIN F.queueStats_DELAY_MAX F.queueStats_DELAY_LAST
    F.queueStats_DELAY_SAMPLED s
  match histBins[histBin (s.on F.portSched_HIST_MODE p) (s.get F.portSched_HIST_BASE p) d]? with
  | some f => s.inc f q
  | none => s

/-! ## Enqueue and departure -/

/-- A frame goes to the tail of its queue. -/
def enqueue (f : Frame) (s : State) : State :=
  let q := f.qnum
  let s := if (s.queue q).isEmpty then followRange q s else s
  refreshActive (queuePort q) (sampleDepth q (s.pushFrame { f with loc := .queue q }))

/-- What follows a departure from a queue: the frame has left already. -/
def departed (q : Nat) (s : State) : State :=
  let s := sampleDepth q s
  let s := if (s.queue q).isEmpty then followRange q s else s
  refreshActive (queuePort q) s

/-- The shapers that a frame of a queue and class at a port charges. -/
def shapersOf (p t q : Nat) (s : State) : List Nat :=
  [q, classShaper p t, portShaper p].filter fun x => s.on F.shaper_EN x

/-- A selection evaluates the words of its queue, its class, its port and the shapers that it charges (Table FA-2). DEDUCED,
log entry 33. -/
def selectWords (p t q : Nat) (s : State) : State × Bool :=
  let (s, b1) := evalObj .queueCfg q s
  let (s, b2) := evalObj .classCfg (p * 8 + t) s
  let (s, b3) := evalObj .portSched p s
  let (s, b4) := evalObjs .shaper (shapersOf p t q s) s
  (s, b1 || b2 || b3 || b4)

/-- Selection of a frame of class t at port p: its queue's and class's tags, its shapers' charge, its samples. The frame
stands in transmission. -/
def takeSelected (p t : Nat) (express : Bool) (f : Frame) (s : State) : Frame × State :=
  let q := f.qnum
  let c := p * 8 + t
  let b := egressLen f
  let d := sojourn f s
  let qt := queueTag q s % 2 ^ 48
  let ct := classTag p t s % 2 ^ 48
  let weighted := !s.on F.classCfg_STRICT c
  let s := (s.put F.queueCfg_FINISH q qt).put F.classCfg_V_QUEUE c qt
  let s := if weighted then (s.put F.classCfg_C_FINISH c ct).put F.portSched_V_CLASS p ct else s
  let s := { s with sched := { s.sched with qStart := dropKey s.sched.qStart q, cStart := dropKey s.sched.cStart c } }
  let xs := shapersOf p t q s
  let s := xs.foldl (fun s x => chargeShaper x b s) s
  let f := { f with loc := .tx p express, selFrc := s.frc, soj := d, egLen := b, selClass := t, charged := xs }
  (f, departed q (sampleSojourn q d (perfEvent 0x0B 0x01 q 1 (s.setFrame f))))

/-- n + cost of d at weight w, for a difference d that may be negative (R195). -/
def addCost (n : Nat) (d : Int) (w : Nat) : Nat :=
  ((((n : Int) - (-(d * 4096)) / ((max 1 w : Nat) : Int))) % (2 : Int) ^ 48).toNat

/-- After the last bit: the difference between the bytes sent and b moves the finish tags, the starts of entities still
active, and the shapers charged (R195). -/
def correctSent (p : Nat) (f : Frame) (sent : Nat) (s : State) : State :=
  let d : Int := (sent : Int) - f.egLen
  if d == 0 then s
  else
    let q := f.qnum
    let c := p * 8 + f.selClass
    let w := s.get F.queueCfg_WEIGHT q
    let cw := s.get F.classCfg_C_WEIGHT c
    let s := s.put F.queueCfg_FINISH q (addCost (s.get F.queueCfg_FINISH q) d w)
    let s := { s with sched := { s.sched with
      qStart := s.sched.qStart.map fun (e : Nat × Active) =>
        if e.1 == q then (q, { e.2 with start := addCost e.2.start d w }) else e } }
    let s := if s.on F.classCfg_STRICT c then s
      else
        let s := s.put F.classCfg_C_FINISH c (addCost (s.get F.classCfg_C_FINISH c) d cw)
        { s with sched := { s.sched with
          cStart := s.sched.cStart.map fun (e : Nat × Active) =>
            if e.1 == c then (c, { e.2 with start := addCost e.2.start d cw }) else e } }
    refreshActive p (f.charged.foldl (fun s x => chargeShaper x d s) s)

/-- CALENDAR_SLOT_VISIT at a slot boundary (R196). -/
def slotVisitDo (s : State) : State :=
  if s.frc % 64 != 0 then s
  else
    let k := s.frc / 64 % 4096
    let xs := (s.listed .shaper).filter fun x =>
      s.on F.shaper_EN x && s.on F.shaper_WAITING x && s.get F.shaper_SLOT x == k
    xs.foldl (fun s x =>
      let s := refill x s
      if lookD 0 s.sched.credit x < 0 then enterSlot x s
      else refreshActive (shaperPort x) (s.put F.shaper_WAITING x 0)) s

/-! ## Policers (R202 to R206) -/

/-- Buckets of a policer, exact. -/
def bucketC (p : Nat) (s : State) : Int := lookD 0 s.sched.bktC p
def bucketE (p : Nat) (s : State) : Int := lookD 0 s.sched.bktE p

def setBuckets (p : Nat) (c e : Int) (s : State) : State :=
  { s with sched := { s.sched with bktC := putD 0 s.sched.bktC p c, bktE := putD 0 s.sched.bktE p e } }

/-- Bytes as units of a bucket. -/
def unitsOf (bytes : Nat) : Int := ((bytes * creditUnit : Nat) : Int)

/-- One update of policer p with length b and input colour cin: the output colour, and whether each bucket was debited.
Colours: 0 green, 1 yellow, 2 red. DEDUCED, log entry 44. -/
def policerUpdate (p b cin : Nat) (s : State) : (Nat × Bool × Bool) × State :=
  let el := s.frc - lookD 0 s.sched.polLast p
  let s := { s with sched := { s.sched with polLast := putD 0 s.sched.polLast p s.frc } }
  let aware := s.on F.policer_AWARE p
  let add (r : Fld) : Int := ((s.get r p * rateUnit * el : Nat) : Int)
  let cbs := unitsOf (s.get F.policer_CBS p)
  let ebs := unitsOf (s.get F.policer_EBS p)
  let ub := unitsOf b
  let c0 := bucketC p s
  let e0 := bucketE p s
  let (out, c, e, dc, de) : Nat × Int × Int × Bool × Bool :=
    match s.get F.policer_MODE p with
    | 1 =>
      let c := min cbs (c0 + add F.policer_CIR)
      if (aware && cin == 2) || c < ub then (2, c, e0, false, false) else (0, c - ub, e0, true, false)
    | 2 =>
      let g := add F.policer_CIR
      let a := min g (max 0 (cbs - c0))
      let c := c0 + a
      let e := min ebs (e0 + g - a)
      if ub ≤ c && (!aware || cin == 0) then (0, c - ub, e, true, false)
      else if ub ≤ e && (!aware || cin != 2) then (1, c, e - ub, false, true)
      else (2, c, e, false, false)
    | _ =>
      let c := min cbs (c0 + add F.policer_CIR)
      let e := min ebs (e0 + add F.policer_PIR)
      if e < ub || (aware && cin == 2) then (2, c, e, false, false)
      else if c < ub || (aware && cin == 1) then (1, c, e - ub, false, true)
      else (0, c - ub, e - ub, true, true)
  let s := (setBuckets p c e s).put F.polState_LAST_COLOUR p out
  ((out, dc, de), if out == 2 then s.inc F.polState_RED_FRAMES p else s)

/-- A red result drops the frame (R203). -/
def redDrops (p : Nat) (s : State) : Bool := s.get F.policer_MODE p == 1 || s.on F.policer_RED_DROP p

/-- What policing a frame gives. -/
structure Policed where
  colour : Nat
  drop : Bool
  last : Option Nat
  debits : List (Nat × Nat × Bool × Bool)
  /-- A policer's words are uncorrectable (R319). -/
  ecc : Bool
  deriving DecidableEq, Repr

/-- A frame that no policer has seen. -/
def unpoliced : Policed := ⟨0, false, none, [], false⟩

/-- The policers of a frame in their order (R202, R203). A policer of MODE 000 updates nothing and leaves the colour. -/
def police (b : Nat) : List Nat → Policed → State → Policed × State
  | [], r, s => (r, s)
  | p :: ps, r, s =>
    let (s, b1) := evalObj .policer p s
    let (s, b2) := evalObj .polState p s
    if b1 || b2 then ({ r with ecc := true }, s)
    else if s.get F.policer_MODE p == 0 then police b ps r s
    else
      let ((out, dc, de), s) := policerUpdate p b r.colour s
      let ds := if dc || de then r.debits ++ [(p, b, dc, de)] else r.debits
      let r := { r with colour := out, last := some p, debits := ds }
      if out == 2 && redDrops p s then ({ r with drop := true }, s) else police b ps r s

/-- The class of a forwarded frame after policing (R203). -/
def policedClass (r : Policed) (t : Nat) (s : State) : Nat :=
  match r.last with
  | some p => if r.colour != 0 && s.on F.policer_NG_TC_EN p then s.get F.policer_NG_TC p else t
  | none => t

/-- The correction at the last byte of a policed frame of received length l (R205). -/
def policerCorrect (l : Nat) (d : Nat × Nat × Bool × Bool) (s : State) : State :=
  let (p, b, dc, de) := d
  let diff : Int := unitsOf b - unitsOf l
  let c := if dc then min (unitsOf (s.get F.policer_CBS p)) (bucketC p s + diff) else bucketC p s
  let e := if de then min (unitsOf (s.get F.policer_EBS p)) (bucketE p s + diff) else bucketE p s
  setBuckets p c e s

/-- A write of POL_STATE sets both buckets together (R206); the values are bytes with 16 fractional bits. -/
def polStateWriteDo (p c e : Nat) (s : State) : State :=
  setBuckets p (toSigned 42 c * 625) (toSigned 42 e * 625) s

/-! ## COMMIT of unit SCHED (R207, R208) -/

/-- A class range of a port as a COMMIT would make it. -/
def rangesOk (g : Fld → Nat → Nat) (p : Nat) : Bool :=
  let r := (List.range 8).map fun t => (g F.classCfg_FIRST_Q (p * 8 + t), g F.classCfg_NQ (p * 8 + t))
  r.all (fun x => 1 ≤ x.2 && x.1 + x.2 ≤ 64) &&
    (List.range 8).all fun i => (List.range i).all fun j =>
      let a := r.getD i (0, 0)
      let b := r.getD j (0, 0)
      a.1 + a.2 ≤ b.1 || b.1 + b.2 ≤ a.1

def shaperCfgOk (g : Fld → Nat → Nat) (x : Nat) : Bool :=
  g F.shaper_EN x == 0 ||
    (1 ≤ g F.shaper_RATE x && g F.shaper_RATE x ≤ 16000000 && 64 ≤ g F.shaper_BURST x)

def policerCfgOk (g : Fld → Nat → Nat) (p : Nat) : Bool :=
  let m := g F.policer_MODE p
  m ≤ 3 && (m == 0 || (1 ≤ g F.policer_CIR p && g F.policer_CIR p ≤ 16000000 && 64 ≤ g F.policer_CBS p)) &&
    (m != 3 || (g F.policer_CIR p ≤ g F.policer_PIR p && 64 ≤ g F.policer_EBS p))

/-- The objects of a class that either store lists. -/
def eitherListed (c : Cls) (s : State) : List Nat := s.listed c ++ s.stagedListed c

/-- The objects of a class that either store lists before or after a COMMIT. -/
def everListed (c : Cls) (old s : State) : List Nat := (eitherListed c old ++ eitherListed c s).eraseDups

/-- Unit SCHED passes its COMMIT check (R207). -/
def schedOk (us : List Nat) (s : State) : Bool :=
  let g := s.eff us
  let weightOk (w : Nat) : Bool := 1 ≤ w && w ≤ 4096
  ((eitherListed .classCfg s).all fun c => rangesOk g (c / 8) && weightOk (g F.classCfg_C_WEIGHT c)) &&
    ((eitherListed .queueCfg s).all fun q => weightOk (g F.queueCfg_WEIGHT q)) &&
    ((eitherListed .portSched s).all fun p => 1 ≤ g F.portSched_HIST_BASE p) &&
    ((eitherListed .shaper s).all (shaperCfgOk g)) && (eitherListed .policer s).all (policerCfgOk g)

/-- A queue that holds frames when the ranges change (R208). -/
def moveQueue (old : State) (q : Nat) (s : State) : State :=
  match servedClass q old, rangeClass q s with
  | some a, b =>
    if b == some a then s.puts q [(F.queueCfg_MOVING, 0), (F.queueCfg_CUR_TC, a)]
    else s.puts q [(F.queueCfg_MOVING, 1), (F.queueCfg_CUR_TC, a)]
  | none, some b => s.puts q [(F.queueCfg_MOVING, 0), (F.queueCfg_CUR_TC, b)]
  | none, none => s

/-- A shaper's settings have changed. DEDUCED, log entry 44. -/
def shaperCommitted (old : State) (x : Nat) (s : State) : State :=
  let was := old.on F.shaper_EN x
  let is := s.on F.shaper_EN x
  if is && !was then
    setCredit x (unitsOf (s.get F.shaper_BURST x)) (s.put F.shaper_WAITING x 0)
  else if !is then setCredit x (min (unitsOf (s.get F.shaper_BURST x)) (creditNow x old)) (s.put F.shaper_WAITING x 0)
  else if old.get F.shaper_RATE x != s.get F.shaper_RATE x || old.get F.shaper_BURST x != s.get F.shaper_BURST x then
    let s := setCredit x (min (unitsOf (s.get F.shaper_BURST x)) (creditNow x old)) s
    if s.on F.shaper_WAITING x then enterSlot x (s.put F.shaper_WAITING x 0) else s
  else s

/-- A policer's settings have changed. -/
def policerCommitted (old : State) (p : Nat) (s : State) : State :=
  let cbs := unitsOf (s.get F.policer_CBS p)
  let ebs := unitsOf (s.get F.policer_EBS p)
  let diff (f : Fld) : Bool := old.get f p != s.get f p
  if diff F.policer_MODE || diff F.policer_AWARE then setBuckets p cbs ebs s
  else if old.obj .policer p != s.obj .policer p then setBuckets p (min cbs (bucketC p s)) (min ebs (bucketE p s)) s
  else s

/-- What a COMMIT of unit SCHED does beside making its settings live, from the settings before it. -/
def schedCommitted (old s : State) : State :=
  let qs := ((s.frames.filterMap fun f => match f.loc with
    | .queue q => some q
    | _ => none)).eraseDups
  let s := qs.foldl (fun s q => moveQueue old q s) s
  let s := (everListed .shaper old s).foldl (fun s x => shaperCommitted old x s) s
  let s := (everListed .policer old s).foldl (fun s p => policerCommitted old p s) s
  (qs.map queuePort).eraseDups.foldl (fun s p => refreshActive p s) s

end Sys2Proof.Machine
end

