-- ==== Sys2Proof/Machine/FlockLink.lean ====
section
/-! DEFINITION. Machine/FlockLink.lean: superframes and their slots, frame alignment, defects, cross-connections, control
packets and page switches of flock links (chapter 11). -/

namespace Sys2Proof.Machine

open Sys2Proof

/-- EN of a flock link; a link that escalation isolates acts as with EN 0 (Table FA-7). -/
def linkOn (o : Nat) (s : State) : Bool := s.on F.linkCfg_EN o && !s.isolated (instOf 0x0E o)

/-- The framer runs on the octet. -/
def framerRuns (o : Nat) (s : State) : Bool := linkOn o s && !s.flt.fatal && !s.sys.inReset

/-- The slots of an octet's live receive page with an RX_TYPE: 1 data, 2 control, 3 time (Table FL-10). -/
def rxSlots (o ty : Nat) (s : State) : List Nat :=
  (List.range 128).filter fun k => s.get F.conn_RX_TYPE (connBase o (s.get F.linkStatus_RX_PAGE o) + k) == ty

/-- The receiver of an octet takes what a channel of an RX_TYPE brings: its framer is in frame, its octet delivers blocks, and
its live receive page has a slot of that type (R49, R261, R263). -/
def channelHears (o ty : Nat) (s : State) : Bool :=
  framerRuns o s && s.on F.linkStatus_IN_FRAME o && octetDelivers o s && !(rxSlots o ty s).isEmpty

/-! ## Pages (R265) -/

/-- The other page. -/
def otherPage (page : Nat) : Nat := 1 - page

/-- A record of a page switch (Table ER-3). -/
def pageRecord (o dir page : Nat) (s : State) : State := recPlain 0x2A (o * 2 ^ 8 + dir * 2 + page) 0 s

/-- The standby transmit page holds a reserved code, or a cross-connect from an octet with EN 0 or another lane RATE. -/
def standbyBad (o : Nat) (s : State) : Bool :=
  (rangeFrom (connBase o (otherPage (s.get F.linkStatus_TX_PAGE o))) 128).any fun k =>
    let ty := s.get F.conn_TX_TYPE k
    let x := s.get F.conn_XC_OCTET k
    4 < ty || (ty == 4 &&
      (!s.on F.linkCfg_EN x || s.get F.laneCfg_RATE (8 * x) != s.get F.laneCfg_RATE (8 * o)))

/-- The status a SWITCH write completes with. -/
def switchStatus (o : Nat) (s : State) : Nat :=
  if s.on F.linkStatus_SWITCH_PENDING o then stBusy else if standbyBad o s then stBadParam else stOk

/-- LINK_PAGE_SWITCH: an accepted SWITCH waits for the next whole multiframe. -/
def pageSwitchDo (o : Nat) (s : State) : State :=
  if switchStatus o s = stOk then s.put F.linkStatus_SWITCH_PENDING o 1 else s

/-- The transmitter has announced the new page for a whole multiframe, and the multiframe has ended. -/
def txSwitchDue (o : Nat) (s : State) : Bool :=
  s.on F.linkStatus_SWITCH_PENDING o && (s.link o).announce && (s.link o).txMfc == 0

/-- The transmit page switches; the elastic stores of the octet start filled to two (R264). -/
def txPageDo (o : Nat) (s : State) : State :=
  if txSwitchDue o s then
    let page := otherPage (s.get F.linkStatus_TX_PAGE o)
    let s := s.puts o [(F.linkStatus_TX_PAGE, page), (F.linkStatus_SWITCH_PENDING, 0)]
    let s := s.setLink o { s.link o with announce := false }
    let s := { s with flock := { s.flock with stores := s.flock.stores.filter fun e => e.1 / 128 != o } }
    pageRecord o 0 page s
  else s

/-- The page that at least three of the overhead blocks with MFC 252 to 255 carried. -/
def votedPage (votes : List Bool) : Option Nat :=
  if 3 ≤ votes.count true then some 1 else if 3 ≤ votes.count false then some 0 else none

/-- The receive page at a received multiframe boundary. -/
def rxPageDo (o : Nat) (s : State) : State :=
  let l := s.link o
  let page := (votedPage l.votes).getD (s.get F.linkStatus_RX_PAGE o)
  if l.base != 255 || l.votes.isEmpty then s
  else
    let t := s.setLink o { l with votes := [] }
    if page == s.get F.linkStatus_RX_PAGE o then t else pageRecord o 1 page (t.put F.linkStatus_RX_PAGE o page)

/-- A CONN write to an entry of a live page completes with BUSY. -/
def connBusy (i : Nat) (s : State) : Bool :=
  let page := i / 128 % 2
  page == s.get F.linkStatus_TX_PAGE (i / 256) || page == s.get F.linkStatus_RX_PAGE (i / 256)

/-! ## Defects (R258 to R260) -/

/-- The raw bit of a defect: 0 LOS, 1 LOF, 2 LOM, 3 AIS, 4 RDI. -/
def rawFld (d : Nat) : Fld :=
  match d with
  | 0 => F.linkStatus_LOS
  | 1 => F.linkStatus_LOF
  | 2 => F.linkStatus_LOM
  | 3 => F.linkStatus_AIS
  | _ => F.linkStatus_RDI

/-- The sticky bit of a reported defect. -/
def stickyFld (d : Nat) : Fld :=
  match d with
  | 0 => F.linkStatus_LOS_S
  | 1 => F.linkStatus_LOF_S
  | 2 => F.linkStatus_LOM_S
  | 3 => F.linkStatus_AIS_S
  | _ => F.linkStatus_RDI_S

/-- A defect is present on an octet. -/
def present (o d : Nat) (s : State) : Bool := s.on (rawFld d) o

/-- A defect is suppressed: more than 16 devices, and a defect to its left present; for RDI, any of the four. -/
def suppressed (o d : Nat) (s : State) : Bool :=
  16 < s.get F.flockCfg_DEVICES 0 && (List.range d).any fun k => present o k s

/-- INFO0 of a defect record. -/
def defectInfo (o d : Nat) : Nat := o * 2 ^ 8 + d

/-- The instance of a flock link. -/
def linkInst (o : Nat) : Nat := instOf 0x0E o

/-- A defect is reported (R260): its sticky bit, its record, and the level source when it is the octet's first. -/
def reportDefect (o d : Nat) (s : State) : State :=
  let l := s.link o
  let first := l.reported.isEmpty
  let s := (s.put (stickyFld d) o 1).setLink o { l with reported := l.reported ++ [d] }
  if first then raiseLevel 0x0D (linkInst o) (some (0x28, defectInfo o d, 0)) s
  else recPlain 0x28 (defectInfo o d) 0 s

/-- The unreported defects that nothing suppresses any more are reported, in the order of R260. -/
def reportFreed (o : Nat) (s : State) : State :=
  (List.range 5).foldl (fun s d =>
    if present o d s && !(s.link o).reported.contains d && !suppressed o d s then reportDefect o d s else s) s

/-- A raw defect is set, and reported unless suppressed. -/
def declareDefect (o d : Nat) (s : State) : State :=
  let s := s.put (rawFld d) o 1
  if suppressed o d s then s else reportDefect o d s

/-- A raw defect clears; a reported one writes its record, and the last one ends the level condition. -/
def clearDefect (o d : Nat) (s : State) : State :=
  let s := s.put (rawFld d) o 0
  let l := s.link o
  let s := if l.reported.contains d then
      let left := l.reported.filter (· != d)
      let s := recPlain 0x29 (defectInfo o d) 0 (s.setLink o { l with reported := left })
      if left.isEmpty then clearLevel 0x0D (linkInst o) s else s
    else s
  reportFreed o s

/-- The criterion of Table FL-7 for a change of a defect holds: for LOS the time since the condition of the octet's lanes
changed, 1 µs bad or 10 µs good; for LOF the time since IN_FRAME changed; for the others the runs of overhead blocks. -/
def criterion (o d : Nat) (declare : Bool) (s : State) : Bool :=
  let l := s.link o
  match d with
  | 0 => l.lanesGood != declare && l.lanesSince + (if declare then 1000 else 10000) ≤ s.frc
  | 1 => s.on F.linkStatus_IN_FRAME o != declare && l.frameSince + 2000 ≤ s.frc
  | _ => l.due.contains (d, declare)

/-- FLOCK_DEFECT_DECLARE and FLOCK_DEFECT_CLEAR (R258). -/
def defectDo (o d : Nat) (declare : Bool) (s : State) : State :=
  if d < 5 && framerRuns o s && present o d s != declare && criterion o d declare s then
    let l := s.link o
    let s := s.setLink o { l with due := l.due.filter (· != (d, declare)) }
    if declare then declareDefect o d s else clearDefect o d s
  else s

/-! ## Sending superframes (R252 to R255, R259, R264) -/

/-- Every slot cross-connected from an octet carries all ones. -/
def insertsOnes (o : Nat) (s : State) : Bool :=
  !linkOn o s || present o 0 s || present o 1 s || present o 2 s || present o 3 s

/-- The AIS code that an octet sends: 0x2 when every slot that is not idle carries inserted all ones, 0x1 when one does. -/
def aisCode (o : Nat) (s : State) : Nat :=
  let b := connBase o (s.get F.linkStatus_TX_PAGE o)
  let busy := (rangeFrom b 128).filter fun k => s.get F.conn_TX_TYPE k != 0
  let ones := busy.filter fun k => s.get F.conn_TX_TYPE k == 4 && insertsOnes (s.get F.conn_XC_OCTET k) s
  if ones.isEmpty then 0 else if ones.length == busy.length then 2 else 1

/-- The gap and the JC code for an overhead block whose start lies e / 2^16 framer blocks after its SFCLK tick (R253). -/
def justify (e : Int) : Nat × Nat :=
  if 32768 < e then (0, 2) else if e < -32768 then (2, 1) else (1, 0)

/-- The overhead block of the superframe that an octet sends next (Table FL-4). -/
def overheadBlock (o jc : Nat) (s : State) : BitVec 128 :=
  let l := s.link o
  let page := s.get F.linkStatus_TX_PAGE o
  let rdi := present o 0 s || present o 1 s || present o 2 s || present o 3 s
  BitVec.ofNat 128 (0xD2E14B3C * 2 ^ 96 + l.txMfc % 256 * 2 ^ 88 + page * 2 ^ 87 +
    (if l.announce then otherPage page else page) * 2 ^ 86 + jc * 2 ^ 84 + jc * 2 ^ 82 + jc * 2 ^ 80 +
    aisCode o s * 2 ^ 76 + b2n rdi * 2 ^ 75 + l.txBip.toNat * 2 ^ 67 + s.sys.devid % 1024 * 2 ^ 57 + o % 128 * 2 ^ 50)

/-! ### Blocks (R252, R254, R255, R261) -/

/-- An IDLE block: TYPE 0x00; the bits below TYPE, which the manual does not give, are 0. DESIGN CHOICE, log entry 110. -/
def idleBlock : Block := .ctrl 0

/-- The payload of a justification filler (R252). -/
def fillerPayload : BitVec 128 := BitVec.ofNat 128 (0x9C * 2 ^ 120)

/-- The payload of a block. -/
def blockPayload : Block → BitVec 128
  | .data p | .ctrl p | .errored p => p

/-- A received slot block: a control block whose TYPE is neither IDLE nor START is treated as errored (R254). -/
def slotBlock : Block → Block
  | .ctrl p => if bits p.toNat 127 120 == 0x00 || bits p.toNat 127 120 == 0x78 then .ctrl p else .errored p
  | b => b

/-- A block is errored. -/
def blockErrored : Block → Bool
  | .errored _ => true
  | _ => false

/-- The 16 blocks of a slot from a list: IDLE blocks fill it up. -/
def slot16 (bs : List Block) : List Block := (bs ++ List.replicate 16 idleBlock).take 16

/-- The 16 data blocks with all-ones payload that an inserted slot carries (R259). -/
def onesSlot : List Block := List.replicate 16 (.data (BitVec.allOnes 128))

/-- Even parity of each bit position over the 16 bytes of a payload. -/
def parity16 (p : BitVec 128) : BitVec 8 := (List.range 16).foldl (fun x i => x ^^^ p.extractLsb' (8 * i) 8) 0

/-- BIP-8 of a superframe: its overhead block, its slots, its fillers (R255). IDLE blocks add nothing. -/
def bip8 (overhead : BitVec 128) (f : Superframe) : BitVec 8 :=
  parity16 ((f.slots.flatMap (·.2)).foldl (fun x b => x ^^^ blockPayload b) (f.fillers.foldl (· ^^^ ·) overhead))

/-- The START block of a frame of n bytes (Table FL-11). -/
def startBlock (n : Nat) (x : PipeStart) : Block :=
  .ctrl (BitVec.ofNat 128 (0x78 * 2 ^ 120 + n % 2 ^ 14 * 2 ^ 106 + x.tc % 8 * 2 ^ 103 + x.srcDevid % 2 ^ 10 * 2 ^ 93 +
    x.srcPort % 2 ^ 11 * 2 ^ 82 + x.inSec % 2 ^ 34 * 2 ^ 48 + x.inNs % 2 ^ 32 * 2 ^ 16 + x.inFrac % 2 ^ 16))

/-- Bytes as data blocks, the last padded with zeros; the fuel is their number. -/
def dataBlocks : Nat → List Byte → List Block
  | 0, _ => []
  | n + 1, bs => if bs.isEmpty then [] else .data (BitVec.ofNat 128 (bytesNat (slice bs 0 16))) :: dataBlocks n (bs.drop 16)

/-- A delimited frame on a pipe (R261). -/
def pipeBlocks (x : PipeStart) (len : Nat) (bytes : List Byte) : List Block :=
  startBlock len x :: dataBlocks bytes.length bytes

/-! ### Elastic stores (R264) -/

/-- A store starts filled to two superframes. -/
def storeDefault : Elastic := { held := [none, none], last := none }

/-- The elastic store of a transmitted slot. -/
def storeOf (k : Nat) (s : State) : Elastic := lookD storeDefault s.flock.stores k

/-- An elastic store set. -/
def setStore (k : Nat) (e : Elastic) (s : State) : State :=
  { s with flock := { s.flock with stores := putD storeDefault s.flock.stores k e } }

/-- The elastic stores of an octet start anew. -/
def storesAnew (o : Nat) (s : State) : State :=
  { s with flock := { s.flock with stores := s.flock.stores.filter fun e => e.1 / 128 != o } }

/-- The blocks of a superframe of a store: those that a store starts filled with are free. DESIGN CHOICE, log entry 110. -/
def storedBlocks (k : Nat) : Option (List Block) → List Block
  | some bs => bs
  | none => (List.range 16).map fun i => .data (Config.storeBlock (k * 16 + i))

/-- The CONN entry of a transmitted slot of an octet. -/
def txConn (o k : Nat) (s : State) : Nat := connBase o (s.get F.linkStatus_TX_PAGE o) + k

/-- A cross-connected slot takes the next superframe of its store; an empty store repeats its last, a slip. The two words of
each block are evaluated (Table FA-2). DEDUCED, log entry 33. -/
def readStore (o k : Nat) (s : State) : List Block × State :=
  let i := o * 128 + k
  let e := storeOf i s
  let s := (evalWords (instOf 0x0E o) (rangeFrom (2 ^ 48 + k * 32) 32) s).1
  match e.held with
  | [] => (storedBlocks i e.last, s.inc F.linkCount_SLIPS o)
  | f :: fs => (storedBlocks i f, setStore i { held := fs, last := f } s)

/-- The octets whose framer runs. -/
def framers (s : State) : List Nat := (List.range 128).filter fun o => framerRuns o s

/-- The 16 blocks that a received superframe carried in a slot. -/
def slotOf (f : Superframe) (k : Nat) : List Block :=
  slot16 ((((f.slots.find? (·.1 == k)).map (·.2)).getD []).map slotBlock)

/-- A received superframe of octet o goes to the store of a slot that it feeds: a full store deletes it, a slip. -/
def writeStore (f : Superframe) (m k : Nat) (s : State) : State :=
  let i := m * 128 + k
  let e := storeOf i s
  if 4 ≤ e.held.length then s.inc F.linkCount_SLIPS m
  else setStore i { e with held := e.held ++ [some (slotOf f (s.get F.conn_XC_SLOT (txConn m k s)))] } s

/-- A superframe received on an octet is written to the stores of every slot that is cross-connected from it. -/
def writeStores (o : Nat) (f : Superframe) (s : State) : State :=
  if insertsOnes o s then s
  else (framers s).foldl (fun s m =>
    ((txSlots m 4 s).filter fun k => s.get F.conn_XC_OCTET (txConn m k s) == o).foldl
      (fun s k => writeStore f m k s) s) s

/-! ### The superframe that is sent (R252, R253, R261, R263) -/

/-- The two blocks of a time record, as the first blocks of a slot. -/
def timeSlot (r : BitVec 256) : List Block := slot16 [.data (r.extractLsb' 128 128), .data (r.extractLsb' 0 128)]

/-- The blocks of one slot by its TX_TYPE: the next blocks of the data or control pipe, the waiting time record in the lowest
time slot, a superframe of the slot's store or inserted all ones, else IDLE blocks. -/
def slotBlocks (o k : Nat) (s : State) : List Block × State :=
  let l := s.link o
  match s.get F.conn_TX_TYPE (txConn o k s) with
  | 1 => (slot16 (l.txData.take 16), s.setLink o { l with txData := l.txData.drop 16 })
  | 2 => (slot16 (l.txCtrl.take 16), s.setLink o { l with txCtrl := l.txCtrl.drop 16 })
  | 3 =>
    if (txSlots o 3 s).head? == some k then
      match l.txTime with
      | r :: rs => (timeSlot r, s.setLink o { l with txTime := rs })
      | [] => (slot16 [], s)
    else (slot16 [], s)
  | 4 => if insertsOnes (s.get F.conn_XC_OCTET (txConn o k s)) s then (onesSlot, s) else readStore o k s
  | _ => (slot16 [], s)

/-- The slots of a superframe, in order, each with what it takes; the connection of each is read (Table FA-2). DEDUCED, log
entry 33. -/
def slotsSent (o : Nat) : List Nat → State → List (Nat × List Block) × State
  | [], s => ([], s)
  | k :: ks, s =>
    let (b, s) := slotBlocks o k (evalObj .conn (txConn o k s) s).1
    let (bs, s) := slotsSent o ks s
    ((k, b) :: bs, s)

/-- The slots of an octet's live transmit page that are not idle. -/
def busyTxSlots (o : Nat) (s : State) : List Nat :=
  (List.range 128).filter fun k => s.get F.conn_TX_TYPE (txConn o k s) != 0

/-- A superframe goes out on the lanes of an octet, and a near-end loopback returns it (R50, R53). -/
def superframeOut (o : Nat) (overhead : BitVec 128) (f : Superframe) (s : State) : State :=
  let l := s.link o
  let s := if sendsLine (octetLanes o) s then s.emit (.superframe o overhead f.slots f.fillers.length) else s
  if hearsLoop (octetLanes o) s then s.setLink o { l with loop := l.loop ++ [⟨overhead, l.txLast⟩] } else s

/-- SUPERFRAME_START on an octet: e the offset of its overhead block from its SFCLK tick in 2^-16 framer blocks. A page
switch that is due precedes it. -/
def superframeDo (o : Nat) (e : Int) (s : State) : State :=
  if !framerRuns o s then s
  else
    let s := txPageDo o s
    let l := s.link o
    let s := if l.txMfc == 0 && s.on F.linkStatus_SWITCH_PENDING o then s.setLink o { l with announce := true } else s
    let (gap, jc) := justify e
    let s := if jc == 1 then s.inc F.linkCount_JUST_POS o else if jc == 2 then s.inc F.linkCount_JUST_NEG o else s
    let oh := overheadBlock o jc s
    let (slots, s) := slotsSent o (busyTxSlots o s) s
    let f : Superframe := ⟨slots, List.replicate gap fillerPayload⟩
    let s := superframeOut o oh f s
    s.setLink o { s.link o with txMfc := (l.txMfc + 1) % 256, txLast := f, txBip := bip8 oh f }

/-! ## The control and time channels (R261, R263) -/

/-- The START block of a packet that the crook sends: SRC_PORT 1026; its class is 0 and its stamp the ToD of its sending.
DESIGN CHOICE, log entry 110. -/
def controlStart (s : State) : PipeStart :=
  ⟨0, s.sys.devid, 1026, stampSec s.tod16 % 2 ^ 34, stampNs s.tod16, stampFrac s.tod16⟩

/-- A Novha packet leaves on the control pipe of an octet, with its FCS (R263); it waits for control slots while the octet's
transmit page has none. A near-end loopback returns it (R53). DESIGN CHOICE, log entry 86. -/
def controlOut (o : Nat) (packet : List Byte) (s : State) : State :=
  if !framerRuns o s then s
  else
    let bs := withFcs packet
    let x := controlStart s
    let s := s.setLink o { s.link o with txCtrl := (s.link o).txCtrl ++ pipeBlocks x bs.length bs }
    let s := if !(txSlots o 2 s).isEmpty && sendsLine (octetLanes o) s then s.emit (.control o x bs) else s
    if hearsLoop (octetLanes o) s then s.setLink o { s.link o with loopCtrl := (s.link o).loopCtrl ++ [bs] } else s

/-- A time record leaves in the lowest time slot of an octet (R263). -/
def timeRecordOut (o : Nat) (r : BitVec 256) (s : State) : State :=
  let s := s.setLink o { s.link o with txTime := (s.link o).txTime ++ [r] }
  let s := if sendsLine (octetLanes o) s then s.emit (.timeRecord o r) else s
  if hearsLoop (octetLanes o) s then s.setLink o { s.link o with loopTime := (s.link o).loopTime ++ [r] } else s

/-! ## Receiving (R254 to R257) -/

/-- The block carries the frame alignment word. -/
def isFaw (ctrl : Bool) (b : BitVec 128) : Bool := ctrl && b.extractLsb' 96 32 == 0xD2E14B3C

/-- MFC of an overhead block. -/
def mfcOf (b : BitVec 128) : Nat := (b.extractLsb' 88 8).toNat

/-- Bit by bit, the majority of three. -/
def majority (a b c : Nat) (i : Nat) : Bool := 2 ≤ b2n (bit a i) + b2n (bit b i) + b2n (bit c i)

/-- The filler blocks that the JC copies of an overhead block state (Table FL-5). -/
def gapOf (b : BitVec 128) : Nat :=
  let x := b.toNat
  let j1 := majority (bits x 85 84) (bits x 83 82) (bits x 81 80) 1
  let j0 := majority (bits x 85 84) (bits x 83 82) (bits x 81 80) 0
  if j1 && !j0 then 0 else if !j1 && j0 then 2 else 1

/-- The framer enters the hunt. -/
def startHunt (o : Nat) (s : State) : State :=
  let s := (s.put F.linkStatus_IN_FRAME o 0).inc F.linkCount_HUNTS o
  s.setLink o { s.link o with
    cands := [], fawBad := 0, mfcBad := 0, mfcGood := 0, aisOn := 0, aisOff := 0, rdiOn := 0, rdiOff := 0, due := [],
    votes := [], ones := [], frameSince := s.frc }

/-- PEER fields from an overhead block received in frame (Table FL-8). -/
def takePeer (o : Nat) (b : BitVec 128) (s : State) : State :=
  s.puts o [(F.linkStatus_PEER_VALID, 1), (F.linkStatus_PEER_DEVID, bits b.toNat 66 57),
    (F.linkStatus_PEER_OCTET, bits b.toNat 56 50)]

/-- An MFC is accepted: it shows as RX_MFC, and the next in sequence is one more (Tables FL-7 and FL-8). -/
def acceptMfc (o m : Nat) (s : State) : State :=
  (s.put F.linkStatus_RX_MFC o m).setLink o { s.link o with accepted := m }

/-- One step of the hunt: the pseudocode of R256. -/
def huntDo (o : Nat) (ctrl : Bool) (b : BitVec 128) (x : Nat) (s : State) : State :=
  let l := s.link o
  let faw := isFaw ctrl b
  let next := x + 2049 + gapOf b
  let fits (c : Nat × Nat × Nat) : Bool := c.1 == x && faw && mfcOf b == (c.2.1 + 1) % 256
  if l.cands.any fun c => fits c && 2 ≤ c.2.2 then
    let s := (s.put F.linkStatus_IN_FRAME o 1).setLink o { l with
      cands := [], base := mfcOf b, next, lastOh := b, frameSince := s.frc }
    takePeer o b (acceptMfc o (mfcOf b) s)
  else
    let kept := (l.cands.filter fun c => c.1 != x || fits c).map fun c =>
      if fits c then (next, mfcOf b, c.2.2 + 1) else c
    let fresh := faw && !(l.cands.any fits) && kept.length < 4
    s.setLink o { l with cands := if fresh then kept ++ [(next, mfcOf b, 1)] else kept }

/-- A change of a defect whose criterion has held begins to wait for its declaration. -/
def dueIf (c : Bool) (d : Nat) (declare : Bool) (l : LinkSt) : LinkSt :=
  if c && !l.due.contains (d, declare) then
    { l with due := l.due.filter (·.1 != d) ++ [(d, declare)] }
  else l

/-- The runs of Table FL-7 after an overhead block in frame: MFC in sequence with the last accepted one or not, the AIS code,
RDI. The fourth MFC out of sequence in a row becomes the new base. -/
def countRuns (o : Nat) (b : BitVec 128) (s : State) : State :=
  let m := mfcOf b
  let l := s.link o
  let seq := m == (l.accepted + 1) % 256
  let l := if seq then { l with mfcGood := l.mfcGood + 1, mfcBad := 0 } else { l with mfcGood := 0, mfcBad := l.mfcBad + 1 }
  let lom := 4 ≤ l.mfcBad
  let l := if lom then { l with mfcBad := 0 } else l
  let l := dueIf (lom && !present o 2 s) 2 true (dueIf (3 ≤ l.mfcGood && present o 2 s) 2 false l)
  let ais := bits b.toNat 79 76 == 2
  let l := if ais then { l with aisOn := l.aisOn + 1, aisOff := 0 } else { l with aisOn := 0, aisOff := l.aisOff + 1 }
  let l := dueIf (3 ≤ l.aisOn && !present o 3 s) 3 true (dueIf (3 ≤ l.aisOff && present o 3 s) 3 false l)
  let rdi := bit b.toNat 75
  let l := if rdi then { l with rdiOn := l.rdiOn + 1, rdiOff := 0 } else { l with rdiOn := 0, rdiOff := l.rdiOff + 1 }
  let l := dueIf (3 ≤ l.rdiOn && !present o 4 s) 4 true (dueIf (3 ≤ l.rdiOff && present o 4 s) 4 false l)
  let l := { l with base := if seq || lom then m else (l.base + 1) % 256 }
  let l := if l.base == m && 252 ≤ m then { l with votes := l.votes ++ [bit b.toNat 86] } else l
  let s := s.setLink o l
  if seq || lom then acceptMfc o m s else s

/-- The slots of a received superframe that carried 16 all-ones data blocks. -/
def onesIn (f : Superframe) : BitVec 128 :=
  f.slots.foldl (fun m e => if slot16 e.2 == onesSlot then m ||| BitVec.ofNat 128 (2 ^ e.1) else m) 0

/-- A slot with all ones in three superframes in a row sets its SLOT_AIS bit, three without clear it (R259). -/
def countOnes (o : Nat) (ones : BitVec 128) (s : State) : State :=
  let l := s.link o
  let was := BitVec.ofNat 128 (s.get F.slotAis_AIS o)
  let now := match l.ones with
    | [a, b] => (was ||| (ones &&& a &&& b)) &&& (ones ||| a ||| b)
    | _ => was
  (s.put F.slotAis_AIS o now.toNat).setLink o { l with ones := (ones :: l.ones).take 2 }

/-- The errored blocks in the slots of a received superframe (Table FL-9 BLK_ERR). -/
def erroredIn (f : Superframe) : Nat := ((f.slots.flatMap fun e => slotOf f e.1).filter blockErrored).length

/-- A correct overhead block in frame, at its place: BIP-8 over the superframe before (R255), the peer, the runs, the next
place. -/
def goodOverhead (o : Nat) (b : BitVec 128) (x : Nat) (f : Superframe) (s : State) : State :=
  let s := if (s.link o).base == 255 then rxPageDo o s else s
  let s := s.addSat F.linkCount_BIP_ERR o (weight8 (bip8 (s.link o).lastOh f ^^^ b.extractLsb' 67 8).toNat)
  let s := countRuns o b (takePeer o b s)
  s.setLink o { s.link o with next := x + 2049 + gapOf b, lastOh := b, fawBad := 0 }

/-- An errored overhead block in frame: the gap is taken as 1, the superframes are counted on, and the fourth in a row ends
the frame (R257). -/
def badOverhead (o : Nat) (b : BitVec 128) (x : Nat) (s : State) : State :=
  let s := s.inc F.linkCount_FAW_ERR o
  let s := if (s.link o).base == 255 then rxPageDo o s else s
  let l := s.link o
  if 4 ≤ l.fawBad + 1 then startHunt o s
  else s.setLink o { l with fawBad := l.fawBad + 1, next := x + 2050, lastOh := b, base := (l.base + 1) % 256 }

/-- A received superframe: its errored blocks, its all-ones slots, and the stores that it feeds. -/
def superframeTaken (o : Nat) (f : Superframe) (s : State) : State :=
  writeStores o f (countOnes o (onesIn f) (s.addSat F.linkCount_BLK_ERR o (erroredIn f)))

/-- The block at position x of an octet's stream, and the superframe that it ends: the hunt, or the check at an expected
place. -/
def overheadAt (o : Nat) (ctrl : Bool) (b : BitVec 128) (x : Nat) (f : Superframe) (s : State) : State :=
  if !s.on F.linkStatus_IN_FRAME o then huntDo o ctrl b x s
  else
    let l := s.link o
    let faw := isFaw ctrl b
    let nominal := x == l.next
    let early := faw && 1 ≤ l.fawBad && x + 1 == l.next
    let late := faw && 2 ≤ l.fawBad && x + 2049 == l.next
    if late then goodOverhead o b x f (s.setLink o { l with base := (l.base + 255) % 256 })
    else if nominal || early then
      let s := superframeTaken o f s
      if faw then goodOverhead o b x f s else badOverhead o b x s
    else s

/-- OVERHEAD_BLOCK_RECEIVE: a block at position x of the stream of an octet that delivers blocks (R49), with what the
framer has received since the last overhead position. In a near-end loopback both are what the octet has sent (R53). -/
def overheadDo (o : Nat) (ctrl : Bool) (b : BitVec 128) (x : Nat) (f : Superframe) (s : State) : State :=
  if !framerRuns o s || !octetDelivers o s then s
  else if hearsLoop (octetLanes o) s then
    match (s.link o).loop with
    | [] => s
    | y :: ys => overheadAt o true y.overhead x y.before (s.setLink o { s.link o with loop := ys })
  else if hearsLine (octetLanes o) s then overheadAt o ctrl b x f s
  else s

/-! ## COMMIT of unit FLOCK (R251) -/

/-- Unit FLOCK passes its COMMIT check. -/
def flockOk (us : List Nat) (s : State) : Bool :=
  let g := s.eff us
  let src := g F.flockCfg_SF_SRC 0
  let dev := g F.flockCfg_DEVICES 0
  src ≤ 1 && 1 ≤ dev && dev ≤ 1024 && (src != 1 || g F.linkCfg_EN (g F.flockCfg_SF_OCTET 0) == 1) &&
    (List.range 128).all fun o => g F.linkCfg_EN o == 0 || g F.octetCfg_MODE o == 2

/-- An octet's framer stops: its defects clear and its frame ends. -/
def stopFramer (o : Nat) (s : State) : State :=
  let s := (List.range 5).foldl (fun s d => if present o d s then clearDefect o d s else s) s
  let s := s.puts o [(F.linkStatus_IN_FRAME, 0), (F.linkStatus_PEER_VALID, 0)]
  s.setLink o linkDefault

/-- What a COMMIT of unit FLOCK does beside making its settings live. -/
def flockCommitted (old s : State) : State :=
  (List.range 128).foldl (fun s o =>
    match old.on F.linkCfg_EN o, s.on F.linkCfg_EN o with
    | false, true =>
      startHunt o (storesAnew o (watchLanes o (s.setLink o { linkDefault with frameSince := s.frc, lanesSince := s.frc })))
    | true, false => stopFramer o s
    | _, _ => s) s

/-- SF_HOLDOVER as it reads (Table FL-2). -/
def sfHoldover (s : State) : Nat :=
  b2n (s.get F.flockCfg_SF_SRC 0 == 1 && !s.on F.linkStatus_IN_FRAME (s.get F.flockCfg_SF_OCTET 0))

end Sys2Proof.Machine
end

