-- ==== Sys2Proof/Machine/TimeUnit.lean ====
section
/-! DEFINITION. Machine/TimeUnit.lean: steps of the ToD, the servo, the reference, pulse outputs, the PPS input, two-step
captures and the time records of flock links (chapter 10). -/

namespace Sys2Proof.Machine

open Sys2Proof

/-! ## Pulse outputs (R243, R244) -/

/-- A pulse output after reset. -/
def toutDefault : ToutSt := { next := none, pulse := none, fired := false }

def State.toutSt (s : State) (n : Nat) : ToutSt := lookD toutDefault s.time.touts n

def State.setTout (s : State) (n : Nat) (v : ToutSt) : State :=
  { s with time := { s.time with touts := putD toutDefault s.time.touts n v } }

/-- The START of a pulse output in ns of ToD. -/
def toutStart (n : Nat) (s : State) : Nat := s.get F.tout_START_SEC n * 10 ^ 9 + s.get F.tout_START_NS n

/-- The first whole ns that is no earlier than the ToD. -/
def todCeil (s : State) : Nat := ceilDiv s.time.tod todUnit

/-- The first edge time of a periodic output at or after a time. -/
def firstEdge (start period t : Nat) : Nat :=
  if t ≤ start then start else start + ceilDiv (t - start) period * period

/-- A COMMIT sets or changes an output: edge times earlier than the commit time plus 1 µs are not produced (R243). -/
def toutArm (n : Nat) (s : State) : State :=
  let lim := todCeil s + 1000
  let start := toutStart n s
  let period := s.get F.tout_PERIOD n
  let x := { s.toutSt n with fired := false }
  if !s.on F.tout_EN n then s.setTout n { x with next := none }
  else if period ≠ 0 then s.setTout n { x with next := some (firstEdge start period lim) }
  else if start < lim then (s.setTout n { x with next := none }).put F.tout_MISSED n 1
  else s.setTout n { x with next := some start }

/-- An output after a step of the ToD (R244). -/
def toutAfterStep (n : Nat) (s : State) : State :=
  let x := s.toutSt n
  let period := s.get F.tout_PERIOD n
  if !s.on F.tout_EN n then s
  else if period ≠ 0 then s.setTout n { x with next := some (firstEdge (toutStart n s) period (s.todNs + 1)) }
  else match x.next with
    | some t => if t < todCeil s then (s.setTout n { x with next := none }).put F.tout_MISSED n 1 else s
    | none => s

/-- TOUT_EDGE: a leading edge at its time (R243). -/
def toutEdgeDo (n : Nat) (s : State) : State :=
  let x := s.toutSt n
  match x.next, x.pulse with
  | some t, none =>
    if s.on F.tout_EN n && t ≤ s.todNs then
      let period := s.get F.tout_PERIOD n
      (s.setTout n { next := if period ≠ 0 then some (t + period) else none,
                     pulse := some (s.frc + s.get F.tout_WIDTH n, s.on F.tout_POL n), fired := true }).inc
        F.tout_EDGES n
    else s
  | _, _ => s

/-- TOUT_PULSE_END: the pulse ends WIDTH after its edge on the FRC (R243). -/
def toutPulseEndDo (n : Nat) (s : State) : State :=
  let x := s.toutSt n
  match x.pulse with
  | some (e, _) => if e ≤ s.frc then s.setTout n { x with pulse := none } else s
  | none => s

/-- The level of ball TOUTn: 1 high (Table TI-8 POL, R243). -/
def toutLevel (n : Nat) (s : State) : Bool :=
  match (s.toutSt n).pulse with
  | some (_, pol) => !pol
  | none => s.on F.tout_POL n

/-! ## Steps of the ToD (R235, R242) -/

/-- The ToD takes a value at one instant; the FRC is not affected. -/
def setTod (t : Nat) (s : State) : State := { s with time := { s.time with tod := t % todPeriod } }

/-- A step of the ToD by a signed amount in 2^-16 ns: STEPS, EV_TIME_STEP, then gates and outputs follow. -/
def stepTod (servo : Bool) (d16 : Int) (newTod : Nat) (s : State) : State :=
  let s := setTod newTod s
  let s := s.inc F.timeStatus_STEPS 0
  let s := recPlain 0x21 (b2n servo) (ofSigned 32 (satSigned 32 (d16 / 65536))) s
  (List.range 8).foldl (fun s n => toutAfterStep n s) (gatesStepped s)

/-- TimeSt.tod of a stamp in 2^-16 ns. -/
def todOf16 (t : Nat) : Nat := t * (2 ^ 8 * 10 ^ 9)

/-- A STEP: the amount is added to the ToD (R235). DEDUCED, log entry 28. -/
def stepBy (servo : Bool) (d16 : Int) (s : State) : State :=
  stepTod servo d16 ((((s.time.tod : Int) + d16 * (2 ^ 8 * 10 ^ 9)) % (todPeriod : Int)).toNat) s

/-- A SET: the ToD becomes the written value (R235). -/
def setTo (sec ns frac : Nat) (s : State) : State :=
  let t : Nat := (sec * 10 ^ 9 + ns) * 65536 + frac
  stepTod false ((t : Int) - s.tod16) (todOf16 t) s

/-! ## The servo (R236) -/

/-- FREQ_LIMIT in 2^-24 ppb. -/
def freqLimit (s : State) : Int := (s.get F.timeCfg_FREQ_LIMIT 0 : Int) * 2 ^ 24

/-- A value held within ± FREQ_LIMIT. -/
def clampFreq (s : State) (x : Int) : Int := max (-(freqLimit s)) (min (freqLimit s) x)

/-- The servo processes one sample, in 2^-16 ns, local minus reference. DEDUCED, log entry 28. -/
def servoSample (o : Int) (s : State) : State :=
  let s := s.inc F.timeStatus_SAMPLES 0
  let s := s.puts 0 [(F.timeStatus_LAST_OFFSET, ofSigned 32 (satSigned 32 (o / 65536))), (F.timeStatus_STATE, 1)]
  let s := { s with time := { s.time with lastSample := s.frc } }
  let thr := s.get F.timeCfg_STEP_THRESH 0
  if thr ≠ 0 && thr * 65536 ≤ o.natAbs then stepBy true (-o) s
  else
    let integ := clampFreq s (s.time.integ - (s.get F.timeCfg_KI 0 : Int) * o)
    let adj := clampFreq s (integ - (s.get F.timeCfg_KP 0 : Int) * o)
    { s with time := { s.time with integ, adj } }

/-- A write of SERVO_IN is a sample only with SRC 00. -/
def servoInOk (s : State) : Bool := s.get F.timeCfg_SRC 0 == 0

/-- SERVO_HOLDOVER: SAMPLE_TIMEOUT has passed while TRACKING. -/
def servoHoldoverDo (s : State) : State :=
  if s.get F.timeStatus_STATE 0 == 1 &&
      s.time.lastSample + s.get F.timeCfg_SAMPLE_TIMEOUT 0 * 10 ^ 6 ≤ s.frc then
    let s := s.put F.timeStatus_STATE 0 2
    { s with time := { s.time with adj := s.time.integ } }
  else s

/-! ## The reference (R234) -/

/-- FS_TREF_LOSS instance: unit TIME. -/
def trefInst : Nat := instOf 0x0D 0

/-- TREF_LOSS: TREF is lost, whether the PLL had locked to it or not; until TREF_LOCK the loss lasts. -/
def trefLossDo (s : State) : State :=
  if s.time.trefLost then s
  else
    let s := s.puts 0 [(F.timeStatus_TREF_LOCK, 0), (F.timeStatus_TREF_LOST_S, 1)]
    raiseLevel 0x0C trefInst (some (0x20, 0, 0)) { s with time := { s.time with trefLost := true } }

def trefLockDo (s : State) : State :=
  let s := s.put F.timeStatus_TREF_LOCK 0 1
  clearLevel 0x0C trefInst { s with time := { s.time with trefLost := false } }

/-! ## PPS input (R245, R246) -/

def ppsEdgeDo (falling : Bool) (s : State) : State :=
  if s.on F.pps_EN 0 && s.on F.pps_EDGE 0 == falling then
    match s.time.lastPps with
    | some t => if s.frc < t + 500000000 then s.inc F.pps_GLITCH 0 else capture s
    | none => capture s
  else s
where
  /-- The ToD at the edge less DELAY, the three capture fields together. -/
  capture (s : State) : State :=
    let c := stampAdd s.tod16 (-(toSigned 32 (s.get F.pps_DELAY 0)) * 4096)
    let s := s.puts 0 [(F.pps_CAP_SEC, stampSec c), (F.pps_CAP_NS, stampNs c), (F.pps_CAP_FRAC, stampFrac c)]
    let s := (s.inc F.pps_COUNT 0)
    let s := { s with time := { s.time with lastPps := some s.frc } }
    if s.get F.timeCfg_SRC 0 == 1 then
      let n : Int := ((stampNs c * 65536 + stampFrac c : Nat) : Int)
      servoSample (if stampNs c < 500000000 then n else n - 1000000000 * 65536) s
    else s

/-! ## Two-step captures (R241) -/

/-- A capture enters TS_FIFO, or is lost to a full FIFO. -/
def tsCapture (e : TsEntry) (s : State) : State :=
  if 256 ≤ s.time.fifo.length then s.inc F.timeStatus_CAPTURE_LOST 0
  else
    let t := { s with time := { s.time with fifo := s.time.fifo ++ [e] } }
    whenever s.time.fifo.isEmpty (notify (vecIdx 2 3)) t

/-- The value a read of TS_FIFO returns. -/
def tsValue : Option TsEntry → ObjVal
  | none => 0
  | some e =>
    [(F.tsFifo_VALID, 1), (F.tsFifo_OUTCOME, e.outcome), (F.tsFifo_PORT, e.port), (F.tsFifo_TAG, e.tag),
     (F.tsFifo_SEC, stampSec e.stamp), (F.tsFifo_NS, stampNs e.stamp), (F.tsFifo_FRAC, stampFrac e.stamp)].foldl
      (fun v p => fldSet v p.1 p.2) 0

/-- A read takes the oldest entry, as one step. -/
def tsTake (s : State) : ObjVal × State :=
  (tsValue s.time.fifo.head?, { s with time := { s.time with fifo := s.time.fifo.tail } })

/-! ## Time records (Table TI-10, R247, R248) -/

def timeLinkDefault : TimeLink := { sent := [], nextSeq := 0, last := none }

def State.timeLink (s : State) (o : Nat) : TimeLink := lookD timeLinkDefault s.time.links o

def State.setTimeLink (s : State) (o : Nat) (v : TimeLink) : State :=
  { s with time := { s.time with links := putD timeLinkDefault s.time.links o v } }

/-- The device is the shepherd (R350). -/
def isShepherd (s : State) : Bool := s.get F.roleCfg_ROLE 0 == 2

/-- Own distance from the shepherd (Table TI-11 HOPS). -/
def ownHops (s : State) : Nat := if isShepherd s then 0 else s.get F.flockTime_HOPS 0

/-- A stamp in 2^-16 ns as the 96 bits of a record: seconds, nanoseconds, fraction. -/
def stampBits (t : Nat) : Nat := stampSec t * 2 ^ 48 + stampNs t * 2 ^ 16 + stampFrac t

/-- The stamp that 96 bits of a record spell. -/
def bitsStamp (x : Nat) : Nat := (x / 2 ^ 48 % 2 ^ 48 * 10 ^ 9 + x / 2 ^ 16 % 2 ^ 32) * 65536 + x % 2 ^ 16

/-- The record sent on the time channel of an octet now. -/
def timeRecordBits (o : Nat) (s : State) : BitVec 256 :=
  let l := s.timeLink o
  BitVec.ofNat 256 (l.nextSeq % 65536 * 2 ^ 240 + (l.last.getD (0, 0)).1 % 65536 * 2 ^ 224 +
    stampBits s.tod16 * 2 ^ 128 + stampBits (l.last.getD (0, 0)).2 * 2 ^ 32 + s.sys.devid % 1024 * 2 ^ 22 +
    ownHops s % 64 * 2 ^ 16 + b2n (isShepherd s || s.get F.timeStatus_STATE 0 == 1) * 2 ^ 15 +
    b2n l.last.isSome * 2 ^ 14)

/-- A record leaves on an octet: its transmit stamp is kept among the last 16 (R247). -/
def timeRecordSent (o : Nat) (s : State) : State :=
  let l := s.timeLink o
  s.setTimeLink o { l with sent := ((l.nextSeq % 65536, s.tod16) :: l.sent).take 16,
                           nextSeq := (l.nextSeq + 1) % 65536 }

/-- Half of a signed number of 2^-16 ns, rounded down. DEDUCED, log entry 29. -/
def half (x : Int) : Int := x / 2

/-- A record received on an octet without error (R248). DEDUCED, log entry 29. -/
def timeRecordTake (o : Nat) (rec : BitVec 256) (s : State) : State :=
  let r := rec.toNat
  let l := s.timeLink o
  let now := s.tod16
  let s := s.setTimeLink o { l with last := some (bits r 255 240, now) }
  if s.get F.flockTime_UPSTREAM 0 ≠ o then s
  else
    match s.get F.timeCfg_SRC 0 == 2 && bit r 15 && bit r 14, l.sent.find? (·.1 == bits r 239 224) with
    | true, some (_, t3) =>
      let t1 : Int := bitsStamp (bits r 223 128)
      let t4 : Int := bitsStamp (bits r 127 32)
      let a : Int := (now : Int) - t1
      let b : Int := t4 - (t3 : Int)
      let mean := half (a + b)
      let s := s.put F.flockTime_MEAN_DELAY 0 (min (2 ^ 32 - 1) mean.toNat)
      let s := s.put F.flockTime_HOPS 0 (min 63 (bits r 21 16 + 1))
      servoSample (half (a - b) - toSigned 32 (s.get F.flockTime_ASYM 0)) s
    | _, _ => s.inc F.flockTime_IGNORED 0

/-- What a COMMIT of unit TIME does beside making its settings live, from the settings before it (R234, R236, R243). -/
def timeCommitted (old : State) (s : State) : State :=
  let s := if old.get F.timeCfg_TREF_SEL 0 ≠ s.get F.timeCfg_TREF_SEL 0 then s.put F.timeStatus_TREF_LOCK 0 0 else s
  let s := if old.get F.timeCfg_SRC 0 ≠ s.get F.timeCfg_SRC 0 then s.put F.timeStatus_STATE 0 0 else s
  let s := if s.get F.timeCfg_FREQ_LIMIT 0 < old.get F.timeCfg_FREQ_LIMIT 0 then
      { s with time := { s.time with integ := clampFreq s s.time.integ, adj := clampFreq s s.time.adj } }
    else s
  (List.range 8).foldl (fun s n =>
    let m := accMask .tout [.ST]
    if old.obj .tout n &&& m ≠ s.obj .tout n &&& m then toutArm n s else s) s

/-- One nanosecond of the time clock passes (R233). DESIGN CHOICE, log entry 58. -/
def tick (s : State) : State :=
  { s with time := { s.time with
      frc := s.time.frc + 1,
      tod := (((s.time.tod : Int) + todUnit + s.time.adj) % (todPeriod : Int)).toNat } }

end Sys2Proof.Machine
end

