-- ==== Sys2Proof/Machine/Versions.lean ====
section
/-! DEFINITION. Machine/Versions.lean: version slots, the version commit, discard and prepare, the sweep, expiry and
reclamation, and the earmarks that frames hold (R159 to R164, R361). -/

namespace Sys2Proof.Machine

open Sys2Proof

/-! ## Slots (Tables AV-12, AV-13) -/

/-- The staged version S. -/
def stagedVer (s : State) : Nat := s.get F.versionStatus_STAGED_VER 0

/-- The CURRENT slot. -/
def currentSlot (s : State) : Nat := s.get F.versionStatus_CURRENT 0

/-- The version of the CURRENT slot. -/
def currentVer (s : State) : Nat := s.get F.slot_VER (currentSlot s)

/-- Slots that are not FREE, rising. -/
def busySlots (s : State) : List Nat := (List.range 4).filter fun n => s.get F.slot_STATE n != 0

/-- The lowest FREE slot. -/
def freeSlotOf (s : State) : Option Nat := (List.range 4).find? fun n => s.get F.slot_STATE n == 0

/-- OLDEST_VER: of the slots not FREE, the version furthest behind the CURRENT one, serially. -/
def oldestVer (s : State) : Nat :=
  let behind (n : Nat) : Nat := (currentVer s + 65536 - s.get F.slot_VER n) % 65536
  match minBy (fun n => 65536 - behind n) (busySlots s) with
  | some n => s.get F.slot_VER n
  | none => currentVer s

/-- OCCUPIED: bit n where slot n is not FREE. -/
def occupied (s : State) : Nat := ((busySlots s).map (2 ^ ·)).foldl (· + ·) 0

/-- AGE_US of a slot: microseconds since it left CURRENT; it saturates. -/
def slotAge (n : Nat) (s : State) : Nat :=
  match s.ver.left.find? (·.1 == n) with
  | some (_, t) => min F.slot_AGE_US.max ((s.frc - t) / 1000)
  | none => 0

/-! ## Earmarks (R160) -/

/-- A frame takes the earmark of a slot. -/
def holdSlot (n : Nat) (s : State) : State := s.put F.slot_HOLDERS n (s.get F.slot_HOLDERS n + 1)

/-- A frame that holds its earmark stops holding it. -/
def unhold (f : Frame) (s : State) : Frame × State :=
  if f.holds then
    ({ f with holds := false }, s.put F.slot_HOLDERS f.earmark (s.get F.slot_HOLDERS f.earmark - 1))
  else (f, s)

/-- The version of a frame's earmark is gone: its slot is EXPIRED or FREE or holds another version (R163). -/
def earmarkExpired (f : Frame) (s : State) : Bool :=
  let st := s.get F.slot_STATE f.earmark
  st == 3 || st == 0 || s.get F.slot_VER f.earmark != f.ver

/-- SLOT_EXPIRE: a DRAINING slot whose AGE_US has reached DRAIN_LIMIT; the frames outside the pens leave HOLDERS. -/
def slotExpireDo (n : Nat) (s : State) : State :=
  if s.get F.slot_STATE n == 2 && s.get F.versionCfg_DRAIN_LIMIT 0 ≤ slotAge n s then
    (s.put F.slot_STATE n 3).frames.foldl (fun s f =>
      if f.holds && f.earmark == n && f.loc != .pen then (fun r => r.2.setFrame r.1) (unhold f s) else s)
      (s.put F.slot_STATE n 3)
  else s

/-- SLOT_FREE: a DRAINING or EXPIRED slot with no holder becomes FREE. -/
def slotFreeDo (n : Nat) (s : State) : State :=
  if 2 ≤ s.get F.slot_STATE n && s.get F.slot_HOLDERS n == 0 then
    let t := s.put F.slot_STATE n 0
    { t with ver := { t.ver with left := dropKey t.ver.left n } }
  else s

/-! ## Version commit (R161) -/

/-- The condition of a version commit or prepare: a FREE slot, and the sweep condition for S. -/
def commitReady (s : State) : Bool := (freeSlotOf s).isSome && !sweepBlocks (stagedVer s) s

/-- Every STAGED object becomes LIVE. -/
def liveObjects (s : State) : State :=
  (versioned s).foldl (fun s o => match stateFld o.1 with
    | some (st, _) => if s.get st o.2 == 1 then s.put st o.2 2 else s
    | none => s) s

/-- The slot a commit takes: the reserved one, or the lowest FREE one. -/
def commitSlot (s : State) : Nat := s.ver.prepared.getD ((freeSlotOf s).getD 0)

/-- The version commit into slot n. -/
def commitNow (n : Nat) (s : State) : State :=
  let old := currentSlot s
  let v := stagedVer s
  let s := (s.listed .lpmTable).foldl (fun s x =>
    if s.on F.lpmTable_ENABLE x then s.put (lpmRootFld n) x (s.get F.lpmTable_NEXT_ROOT x) else s) s
  let s := liveObjects s
  let s := s.puts n [(F.slot_VER, v), (F.slot_HOLDERS, 0)]
  let s := (s.put F.slot_STATE old 2).put F.slot_STATE n 1
  let s := s.puts 0 [(F.versionStatus_CURRENT, n), (F.versionStatus_STAGED_VER, (v + 1) % 65536)]
  let s := s.inc F.versionStatus_COMMITS 0
  { s with ver := { s.ver with left := insKey old s.frc s.ver.left, prepared := none } }

/-- The deadline of a commit accepted at an FRC. -/
def commitDeadline (frc : Nat) (s : State) : Nat := frc + s.get F.versionCfg_COMMIT_TIMEOUT 0 * 1000

/-- The wait of a commit or prepare accepted at an FRC begins. -/
def startWait (n : Option Nat) (prepare : Bool) (frc : Nat) (s : State) : State :=
  { s with ver := { s.ver with wait := some { who := n, prepare, deadline := commitDeadline frc s } } }

def endWait (s : State) : State := { s with ver := { s.ver with wait := none } }

/-! ## Version discard (R162) -/

/-- The entries of the tables after a discard of S: those born in S are cleared, those retired in S reopened. -/
def discardEntries (v : Nat) (s : State) : State :=
  let s := (emAll s).foldl (fun s l => match emAt l s with
    | some e =>
      if e.born == v && !e.settled then emFree l e.wide s
      else if !e.isOpen && e.retired == v then emWrite l (e.setHdr 119 119 1) s
      else s
    | none => s) s
  (s.listed .ruleCtrl).foldl (fun s i =>
    if !s.on F.ruleCtrl_VALID i then s
    else if s.get F.ruleCtrl_BORN i == v && !s.on F.ruleCtrl_SETTLED i then s.setObj .ruleCtrl i 0
    else if !s.on F.ruleCtrl_OPEN i && s.get F.ruleCtrl_RETIRED i == v then s.put F.ruleCtrl_OPEN i 1
    else s) s

/-- The objects after a discard of S. -/
def discardObjects (v : Nat) (s : State) : State :=
  (versioned s).foldl (fun s o => match stateFld o.1 with
    | some (st, rt) =>
      if s.get st o.2 == 1 then s.put st o.2 0
      else if s.get st o.2 == 3 && s.get rt o.2 == v then s.put st o.2 2
      else s
    | none => s) s

/-- The version discard; it also ends a prepared state (R361). -/
def discardNow (s : State) : State :=
  let v := stagedVer s
  let s := discardObjects v (discardEntries v s)
  let cur := currentSlot s
  let s := (s.listed .lpmTable).foldl (fun s x => s.put F.lpmTable_NEXT_ROOT x (s.get (lpmRootFld cur) x)) s
  { s with ver := { s.ver with prepared := none } }

/-! ## Reclamation (R164, R220) -/

/-- No slot that is not FREE holds a version before r. -/
def reclaimable (r : Nat) (s : State) : Bool := (busySlots s).all fun n => !serialLt (s.get F.slot_VER n) r

/-- A counter of 64 bits of a TALLY_MISS object goes up, modulo 2^64. -/
def reclaimTally (e : EmEntry) (s : State) : State :=
  if e.wide && e.kind == 1 then
    (s.addWrap F.tallyMiss_RECL_FRAMES e.table (bits e.raw 167 132)).addWrap F.tallyMiss_RECL_BYTES e.table
      (bits e.raw 213 168)
  else s

/-- RECLAIM: every retired entry and object whose versions have all gone is freed. -/
def reclaimDo (s : State) : State :=
  let s := (emAll s).foldl (fun s l => match emAt l s with
    | some e => if !e.isOpen && reclaimable e.retired s then emFree l e.wide (reclaimTally e s) else s
    | none => s) s
  let s := (s.listed .ruleCtrl).foldl (fun s i =>
    if s.on F.ruleCtrl_VALID i && !s.on F.ruleCtrl_OPEN i && reclaimable (s.get F.ruleCtrl_RETIRED i) s then
      s.setObj .ruleCtrl i 0
    else s) s
  (versioned s).foldl (fun s o => match stateFld o.1 with
    | some (st, rt) => if s.get st o.2 == 3 && reclaimable (s.get rt o.2) s then s.put st o.2 0 else s
    | none => s) s

/-- SETTLED_SWEEP (R123). -/
def settledSweepDo (s : State) : State := sweepDo (oldestVer s) s

/-- Unit VERSIONS passes its COMMIT check (R159). -/
def versionsOk (us : List Nat) (s : State) : Bool :=
  let t := s.eff us F.versionCfg_COMMIT_TIMEOUT 0
  let d := s.eff us F.versionCfg_DRAIN_LIMIT 0
  1 ≤ t && t ≤ 1000000 && 10 ≤ d && d ≤ 100000

end Sys2Proof.Machine
end

