-- ==== Sys2Proof/Machine/Telem.lean ====
section
/-! DEFINITION. Machine/Telem.lean: telemetry records, drop accounting, tally updates, counter pairs, the export path
(chapter 9), and how a frame leaves the device's keeping. -/

namespace Sys2Proof.Machine

open Sys2Proof

/-! ## The record (Table TM-2) -/

/-- STATE of a record (Table TM-3). -/
def tmSent : Nat := 0
def tmDropped : Nat := 1
def tmStomped : Nat := 2
def tmConsumed : Nat := 3
def tmExported : Nat := 4

/-- Drop reasons (Table TM-4). -/
def drFcs : Nat := 0x01
def drRunt : Nat := 0x02
def drOversize : Nat := 0x03
def drParseDepth : Nat := 0x04
def drMalformed : Nat := 0x05
def drLenMismatch : Nat := 0x06
def drLenStomp : Nat := 0x07
def drNoRoute : Nat := 0x08
def drRule : Nat := 0x09
def drPolicer : Nat := 0x0A
def drQuota : Nat := 0x0B
def drPushedOut : Nat := 0x0C
def drPortDown : Nat := 0x0D
def drHostRing : Nat := 0x0E
def drVersionExpired : Nat := 0x0F
def drRaceTimeout : Nat := 0x10
def drTtl : Nat := 0x11
def drStpBlocked : Nat := 0x12
def drGateOverrun : Nat := 0x13
def drQuarantine : Nat := 0x14
def drEcc : Nat := 0x15

/-- No egress port, no queue. -/
def noPort : Nat := 0x7FF
def noQueue : Nat := 0x1FFFF

/-- EG_DELTA of a frame: whether any of it was sent (R238). DEDUCED, log entry 38. -/
def egDelta (f : Frame) (st : Nat) : Nat :=
  if st == tmSent || st == tmStomped then min 0xFFFFFFFE (f.selFrc - f.inFrc) else 0xFFFFFFFF

/-- The six words of a record, EXP_SEQ zero. -/
def recordWords (f : Frame) (st reason egLength : Nat) (s : State) : List Word :=
  [BitVec.ofNat 64 (stampSec f.stamp * 2 ^ 16 + f.seq0 % 2 ^ 16),
   BitVec.ofNat 64 (stampNs f.stamp * 2 ^ 32 + f.port0 % 2 ^ 11 * 2 ^ 21 + f.egress % 2 ^ 11 * 2 ^ 10 +
     f.earmark % 4 * 2 ^ 8 + (f.pen.getD 0xFF) % 2 ^ 8),
   BitVec.ofNat 64 (egDelta f st * 2 ^ 32 + f.soj),
   BitVec.ofNat 64 ((if f.egress == noPort then noQueue else f.qnum % 2 ^ 17) * 2 ^ 47 + f.parse.shape % 2 ^ 10 * 2 ^ 37 +
     reason % 2 ^ 5 * 2 ^ 32 + st % 8 * 2 ^ 29 + f.colour % 4 * 2 ^ 27 + f.tc % 8 * 2 ^ 24 +
     f.parse.status % 2 ^ 16 * 2 ^ 8 + f.kind % 4 * 2 ^ 6),
   BitVec.ofNat 64 (min 16383 f.len0 * 2 ^ 50 + min 16383 egLength * 2 ^ 36 + min 0xFFFF ((f.relFrc - f.doneFrc) * 16) * 2 ^ 20 +
     f.pass % 4 * 2 ^ 18 + b2n f.cut * 2 ^ 17 + f.mirror % 64 * 2 ^ 11 + s.sys.devid % 1024),
   BitVec.ofNat 64 (f.hash % 2 ^ 32 * 2 ^ 32)]

/-! ## Drop accounting (R216) -/

/-- A record is a drop: DROPPED or STOMPED. -/
def isDrop (st : Nat) : Bool := st == tmDropped || st == tmStomped

def countDrop (port reason : Nat) (s : State) : State :=
  (s.addWrap F.dropReason_DROPS reason 1).addSticky F.dropPort_VALUE F.dropPort_WRAPPED (port * 32 + reason) 1

/-! ## Tally (R218 to R220) -/

/-- enc(d) of R219. -/
def encDelay (d : Nat) : Nat :=
  if d < 64 then d
  else
    match (List.range 32).find? fun e => ceilDiv d (2 ^ e) ≤ 63 with
    | some e => e * 64 + ceilDiv d (2 ^ e)
    | none => 0x7FF

def decDelay (x : Nat) : Nat := x % 64 * 2 ^ (x / 64)

/-- Bits hi to lo of a number replaced. -/
def setBits (x hi lo v : Nat) : Nat := x - bits x hi lo * 2 ^ lo + v % 2 ^ (hi + 1 - lo) * 2 ^ lo

/-- The read-modify-write of a tally record: LENGTH, the record's STATE and its EG_DELTA. -/
def tallyApply (raw len st delta : Nat) : Nat :=
  let b := bits raw 213 168 + len
  let n := bits raw 167 132 + 1
  let d := bits raw 131 108 + b2n (isDrop st)
  let m := bits raw 107 97
  let m := if st == tmSent then
      (if delta == 0xFFFFFFFE then 0x7FF else if decDelay m < delta then encDelay delta else m) else m
  let wrap := 2 ^ 46 ≤ b || 2 ^ 36 ≤ n || 2 ^ 24 ≤ d
  let r := setBits (setBits (setBits (setBits raw 213 168 b) 167 132 n) 131 108 d) 107 97 m
  if wrap then setBits r 96 96 1 else r

/-- A tally miss of a table. DEDUCED, log entry 47. -/
def tallyMiss (t len : Nat) (s : State) : State :=
  (s.addWrap F.tallyMiss_MISS_FRAMES t 1).addWrap F.tallyMiss_MISS_BYTES t len

/-- One tally update of a frame's record (R219): two accesses of the key's bank (R138). An entry that cannot be read
counts as a miss. DEDUCED, log entry 47. -/
def tallyUpdate (t key ver len st delta : Nat) (s : State) : State :=
  let s := bankAccess (emBank (emTableHome t key s)) s
  match emLookup t key ver s with
  | (.hit (l, e), s) => emWrite l { e with raw := tallyApply e.raw len st delta } s
  | (_, s) => tallyMiss t len s

/-! ## Counter pairs (R221) -/

/-- Counter pair c counts one pass of n bytes. -/
def counterPair (n : Nat) (c : Nat) (s : State) : State :=
  (s.addWrap F.counter_PACKETS c 1).addWrap F.counter_BYTES c n

/-! ## Export (R222 to R224) -/

/-- Tokens refilled to now, in thousandths of a record. -/
def refillTokens (s : State) : State :=
  let t := min (s.get F.telemCfg_EXP_BURST 0 * 1000)
    (s.telem.tokens + s.get F.telemCfg_EXP_RATE 0 * (s.frc - s.telem.tokLast))
  { s with telem := { s.telem with tokens := t, tokLast := s.frc } }

/-- The export frame being filled is closed. -/
def closeExport (s : State) : State :=
  if s.telem.filling.isEmpty then s
  else { s with telem := { s.telem with filling := [], closed := s.telem.closed ++ [(s.todNs, s.telem.filling)] } }

/-- The words of a record are evaluated as it leaves the export FIFO, at its place by EXP_SEQ (Table FA-2). DEDUCED, log entry
33. -/
def recordLeaves (r : List Word) (s : State) : State :=
  (evalWords (instOf 0x0C 2) (rangeFrom ((r.getD 5 0).toNat % 8192 * 6) 6) s).1

/-- With EXP_DEST 10 the FIFO drains into the export frame, which is closed at EXP_MAXREC records. -/
def drainFifo : List (List Word) → State → State
  | [], s => { s with telem := { s.telem with fifo := [] } }
  | r :: rs, s =>
    let since := if s.telem.filling.isEmpty then s.frc else s.telem.fillSince
    let s := { s with telem := { s.telem with filling := s.telem.filling ++ [r], fillSince := since } }
    drainFifo rs (if s.get F.telemCfg_EXP_MAXREC 0 ≤ s.telem.filling.length then closeExport s else s)

def exportDrain (s : State) : State :=
  if s.get F.telemCfg_EXP_DEST 0 == 2 then drainFifo s.telem.fifo (s.telem.fifo.foldl (fun s r => recordLeaves r s) s)
  else s

/-- An offered record not exported. -/
def notExported (st reason : Nat) (s : State) : State :=
  let s := perfEvent 0x0C 0x01 0 1 s
  if isDrop st then s.addWrap F.dropReason_NOT_EXPORTED reason 1 else s.inc F.telemStatus_SENT_NOT_EXPORTED 0

/-- The export path takes an offered record, or does not. -/
def exportTake (ws : List Word) (st reason : Nat) (s : State) : State :=
  let s := refillTokens s
  if 1000 ≤ s.telem.tokens && s.telem.fifo.length < 8192 then
    let n := s.get F.telemStatus_NEXT_EXP_SEQ 0
    let s := s.put F.telemStatus_NEXT_EXP_SEQ 0 (n + 1)
    let r := ws.take 5 ++ (ws.drop 5).map fun w => w + BitVec.ofNat 64 n
    let s := { s with telem := { s.telem with tokens := s.telem.tokens - 1000, fifo := s.telem.fifo ++ [r] } }
    exportDrain (s.put F.telemStatus_FIFO_PEAK 0 (max (s.get F.telemStatus_FIFO_PEAK 0) s.telem.fifo.length))
  else notExported st reason s

/-- A record is offered for export (R222). -/
def exportOffer (ws : List Word) (st reason : Nat) (s : State) : State :=
  if s.get F.telemCfg_EXP_DEST 0 == 0 then s
  else if isDrop st then
    if bit (s.get F.telemCfg_DROP_MASK 0) reason then exportTake ws st reason s else s
  else if st == tmSent then
    let n := s.get F.telemCfg_SENT_SAMPLE 0
    if n == 0 then s
    else if n ≤ s.telem.sample + 1 then
      exportTake ws st reason { s with telem := { s.telem with sample := 0 } }
    else { s with telem := { s.telem with sample := s.telem.sample + 1 } }
  else if st == tmExported then exportTake ws st reason s
  else s

/-- The telemetry record of a frame is written (R214 to R222): drop counts, tally updates (tallies: none for a record that
the race writes), export. A frame that the device sources itself has no record, nor has one held after a fatal fault
(R329). -/
def writeRecord (f : Frame) (st reason egLength : Nat) (tallies : Bool) (s : State) : State :=
  if f.kind == 3 || s.flt.fatal then s else
  let s := if isDrop st then countDrop f.port0 reason s else s
  let s := if tallies && f.kind == 0 then
      f.tallies.foldl (fun s t => tallyUpdate t.1 t.2 f.ver f.len0 st (egDelta f st) s) s else s
  exportOffer (recordWords f st reason egLength s) st reason s

/-! ## How a frame ends -/

/-- A frame's record is written, its two-step capture made (R241), and it is gone, its earmark no longer held.
DEDUCED, log entry 46. -/
def finish (f : Frame) (st reason egLength : Nat) (s : State) : State :=
  let (f, s) := unhold f s
  let s := if f.twoStep then
      let o := if st == tmSent then 0 else if st == tmStomped then 2 else 1
      tsCapture { outcome := o, port := f.egress, tag := f.tsTag, stamp := if o == 1 then 0 else f.selStamp } s
    else s
  (writeRecord f st reason egLength true s).dropFrame f.id

/-- A frame is dropped whole with a reason: its record is written now, or at its tail where that has not arrived. -/
def dropWhole (f : Frame) (reason : Nat) (s : State) : State :=
  if f.ended then finish f tmDropped reason 0 s
  else
    let (f, s) := unhold f s
    s.pushFrame { f with loc := .tail, bad := reason }

/-- A stored frame's cells and charge are returned; the frame holds none any more. -/
def unstore (f : Frame) (s : State) : Frame × State :=
  let f' := { f with cells := [], charge := 0 }
  (f', (releaseFrame f s).setFrame f')

/-- A frame in a queue is dropped, its cells and charge returned at once. -/
def dropQueued (f : Frame) (reason : Nat) (s : State) : State :=
  let q := f.qnum
  let (f, s) := unstore f s
  departed q (dropWhole f reason s)

/-- A frame without content. -/
def blankFrame (id : Nat) : Frame :=
  { id, loc := .mac, wire := id, win := .opening, trunc := 0, kind := 0, mirror := 0, bytes := [], inPort := 0, port0 := 0, pass := 0, seq := 0, seq0 := 0,
    pen := none, disp := 0, stamp := 0, inFrc := 0, overFlock := false, srcDevid := 0, srcPort := 0, earmark := 0, ver := 0,
    holds := false, preempted := false, fragments := 0, assemblyErr := false, smdErr := false, blockErr := false,
    phy := ⟨0, 0, 0, 0, []⟩, maxFrame := 0, malAct := 0, lmAct := 0, raceTo := 0, ended := false, bad := 0,
    parse := { shape := 0, status := 0, fields := [], layers := [], pred := 0 },
    hash := 0, fid := 0, vrf := 0, tc := 0, egress := noPort, qnum := noQueue, trap := false, command := false,
    edits := { act := none, nh := none, decTtl := false, dmac := none }, growth := 0, colour := 0, counters := [],
    tallies := [], debits := [], stray := false, hopOff := none, hopOvf := false, direct := false, oneStep := false,
    twoStep := false, tsTag := 0, len0 := 0, doneFrc := 0, relFrc := 0, soj := 0, req := 0, charge := 0, cells := [],
    admFrc := 0, depth := 0, cut := false, selFrc := 0, selStamp := 0, egLen := 0, selClass := 0, charged := [],
    frags := 0, fragFrc := none, fragSent := 0, gateShut := false, stomp := 0, sentLen := 0, sendBody := [] }

/-- A new frame id. -/
def newId (s : State) : Nat × State := (s.nextFrame, { s with nextFrame := s.nextFrame + 1 })

/-- Victims of a push-out, whose cells and charge admission has released: records and departures. -/
def recordVictims (vs : List Frame) (s : State) : State :=
  vs.foldl (fun s v =>
    departed v.qnum (dropWhole { v with cells := [], charge := 0 } drPushedOut s)) s

/-- An admission evaluates the words of its requester's account and, for each cell, the bitmap word that shows it free (Table
FA-2). DEDUCED, log entry 33. -/
def accountWords (r : Nat) (cells : List (Nat × Nat)) (s : State) : State × Bool :=
  let (s, b1) := evalObj .reqQuota r s
  let (s, b2) := evalObj .reqStatus r s
  let (s, b3) := mapWords cells s
  (s, b1 || b2 || b3)

/-- Admission of a frame to its egress port and queue for a requester, with predicted length len (R182): none where it is
admitted (it stands in its queue), else the drop reason; every frame that arrives during a fold recovery is DR_ECC (R179).
DEDUCED, log entry 97. -/
def admitFrame (f : Frame) (r len : Nat) (s : State) : Option Nat × State :=
  if s.on F.foldStatus_RECOVERING 0 then (some drEcc, s)
  else match admission r len f.egress f.qnum s with
    | (.portDown, s) => (some drPortDown, s)
    | (.quota, s) => (some drQuota, s)
    | (.admitted cells victims, s) =>
      let s := recordVictims victims s
      let depth := queueBu f.qnum s
      let f := { f with req := r, charge := buOf len, cells, admFrc := s.frc, depth }
      let (s, bad) := accountWords r cells s
      if bad then (some drEcc, releaseFrame f s) else (none, enqueue f s)

/-- The bytes of an export frame without its FCS (R223, Table TM-9): the ToD of its close in ns, its records. -/
def exportBytes (tod : Nat) (rs : List (List Word)) (s : State) : List Byte :=
  let n := s.get F.telemCfg_EXP_HDR_LEN 0
  let hdr := ((List.range 4).flatMap fun w => natBytes 16 (s.get F.expHeader_BYTES w)).take n
  let first := match rs.head? with
    | some r => (r.getD 5 0).toNat % 2 ^ 32
    | none => 0
  let eh := natBytes 16 (2 ^ 120 + rs.length % 256 * 2 ^ 112 + s.sys.devid % 1024 * 2 ^ 102 + first * 2 ^ 64 +
    tod / 10 ^ 9 % 2 ^ 32 * 2 ^ 32 + tod % 10 ^ 9)
  let bs := hdr ++ eh ++ rs.flatMap fun r => r.flatMap beBytes
  let ip := s.get F.telemCfg_EXP_IP_OFF 0
  let udp := s.get F.telemCfg_EXP_UDP_OFF 0
  let bs := if udp == 0 then bs else
    splice (splice bs (udp + 4) (natBytes 2 (bs.length - udp))) (udp + 6) [0, 0]
  if ip == 0 then bs
  else if s.on F.telemCfg_EXP_IP_V6 0 then splice bs (ip + 4) (natBytes 2 (bs.length - ip - 40))
  else
    let bs := splice (splice bs (ip + 2) (natBytes 2 (bs.length - ip))) (ip + 10) [0, 0]
    splice bs (ip + 10) (natBytes 2 (65535 - inetSum (slice bs ip (byteAt bs ip % 16 * 4))))

/-- A frame that the device itself sources (R223, R287): no record, whole, its content in the queue's order. -/
def sourced (id q tc : Nat) (body : List Byte) : Frame :=
  { blankFrame id with
    kind := 3
    bytes := body ++ fcsBytes body
    inPort := 1027
    port0 := 1027
    ended := true
    tc
    egress := queuePort q
    qnum := q }

/-- The records of an export frame that admission has refused: each drop record is one offered and not exported (R223,
Table TM-14). The records of frames sent are counted nowhere. DEDUCED, log entry 97. -/
def exportLost (rs : List (List Word)) (s : State) : State :=
  let s := s.inc F.telemStatus_EXP_FRAMES_LOST 0
  rs.foldl (fun s r =>
    let reason := (r.getD 3 0).toNat / 2 ^ 32 % 32
    if reason != 0 then notExported tmDropped reason s else s) s

/-- One closed export frame admitted to EXP_QUEUE. -/
def exportOne (tod : Nat) (rs : List (List Word)) (s : State) : State :=
  let body := exportBytes tod rs s
  let q := s.get F.telemCfg_EXP_QUEUE 0
  let (id, s) := newId s
  match admitFrame (sourced id q (rangeClass q s |>.getD 0) body) 8195 (body.length + 4) s with
  | (none, s) => s.inc F.telemStatus_EXP_FRAMES 0
  | (some _, s) => exportLost rs s

/-- The closed export frames admitted, oldest first. A push-out may close another; the fuel bounds the run. -/
def exportPump : Nat → State → State
  | 0, s => s
  | n + 1, s =>
    match s.telem.closed with
    | [] => s
    | (tod, rs) :: cs => exportPump n (exportOne tod rs { s with telem := { s.telem with closed := cs } })

/-- Every closed export frame is admitted or refused. DEDUCED, log entry 97. -/
def pump (s : State) : State := exportPump (s.telem.closed.length + s.frames.length + 1) s

/-- EXPORT_FRAME_FLUSH (R223). -/
def exportFlushDo (s : State) : State :=
  if !s.telem.filling.isEmpty && s.telem.fillSince + s.get F.telemCfg_EXP_FLUSH 0 * 1000 ≤ s.frc then
    pump (closeExport s)
  else s

/-! ## COMMIT of unit TELEM (R222, R224) -/

/-- The export settings pass R224. -/
def exportCfgOk (us : List Nat) (s : State) : Bool :=
  let g (f : Fld) : Nat := s.eff us f 0
  let dest := g F.telemCfg_EXP_DEST
  let hl := g F.telemCfg_EXP_HDR_LEN
  let ip := g F.telemCfg_EXP_IP_OFF
  let udp := g F.telemCfg_EXP_UDP_OFF
  let ipLen := if g F.telemCfg_EXP_IP_V6 == 1 then 40 else 20
  let q := g F.telemCfg_EXP_QUEUE
  let inRange : Bool := (List.range 8).any fun t =>
    let c := queuePort q * 8 + t
    let first := s.eff us F.classCfg_FIRST_Q c
    first ≤ q % 64 && q % 64 < first + s.eff us F.classCfg_NQ c
  dest != 3 && 1 ≤ g F.telemCfg_EXP_RATE && g F.telemCfg_EXP_RATE ≤ 200 &&
    1 ≤ g F.telemCfg_EXP_BURST && g F.telemCfg_EXP_BURST ≤ 8192 &&
    1 ≤ g F.telemCfg_EXP_MAXREC && g F.telemCfg_EXP_MAXREC ≤ 200 && hl ≤ 64 &&
    1 ≤ g F.telemCfg_EXP_FLUSH && g F.telemCfg_EXP_FLUSH ≤ 1000 &&
    !(dest == 2 && (hl < 14 || !inRange)) &&
    (ip == 0 || ip + ipLen ≤ hl) && (udp == 0 || (ip != 0 && udp + 8 ≤ hl && ip + ipLen ≤ udp))

/-- The tokens after a COMMIT of unit TELEM; the FIFO drains to a new destination. -/
def exportCommitted (old s : State) : State :=
  let s := if old.get F.telemCfg_EXP_RATE 0 != s.get F.telemCfg_EXP_RATE 0 ||
      old.get F.telemCfg_EXP_BURST 0 != s.get F.telemCfg_EXP_BURST 0 then
    { s with telem := { s.telem with tokens := s.get F.telemCfg_EXP_BURST 0 * 1000, tokLast := s.frc } } else s
  pump (exportDrain s)

end Sys2Proof.Machine
end

