-- ==== Sys2Proof/Machine/Ports.lean ====
section
/-! DEFINITION. Machine/Ports.lean: port counters, PAUSE and PFC, preemption, port states and the COMMIT of unit PORTS
(chapter 3), and the flush of a port (R188). -/

namespace Sys2Proof.Machine

open Sys2Proof

/-! ## Statistics (R79, R80) -/

/-- Counter c of port p counts n. A crossing of bit 39 from 0 to 1 sets the STATS_HALF bit and notifies PF2 (R80). -/
def countPort (p c n : Nat) (s : State) : State :=
  let i := p * 128 + c
  let x := s.get F.portStats_VALUE i
  let s := s.addSticky F.portStats_VALUE F.portStats_WRAPPED i n
  if x < 2 ^ 39 && 2 ^ 39 ≤ x + n then
    notify (vecIdx 2 2) (s.put F.statsHalf_HALF p (setBit (s.get F.statsHalf_HALF p) c true))
  else s

/-- The size counter of Table EP-10 for a frame length, from the first of its ten counters. -/
def sizeBin (n : Nat) : Nat :=
  ([64, 127, 255, 511, 1023, 1518, 2047, 4095, 9216].filter (· < n)).length

/-- 0 unicast, 1 multicast, 2 broadcast by destination address. -/
def castKind (bs : List Byte) : Nat :=
  if (bs.take 6).all (· == 0xFF) then 2 else if byteAt bs 0 % 2 == 1 then 1 else 0

/-- A good frame counted, from the first receive (0) or transmit (64) counter. -/
def countGood (p base : Nat) (bs : List Byte) (s : State) : State :=
  let n := bs.length
  let size := if base == 0 then 5 else 69
  countPort p (size + sizeBin n) 1 (countPort p (base + 2 + castKind bs) 1 (countPort p (base + 1) 1 (countPort p base n s)))

/-! ## Egress cut off, flush (R82, R83, R188) -/

/-- What the line of a port shows of something sent: it leaves where every lane carries line data (R50, R53). -/
def lineOut (p : Nat) (o : Out) (s : State) : State := if sendsLine (frontLanes p s) s then s.emit o else s

/-- A frame that a near-end loopback returns waits to be received (R53). -/
def loopBack (p : Nat) (w : WireFrame) (s : State) : State :=
  if hearsLoop (frontLanes p s) s then s.setPort p { s.port p with loop := (s.port p).loop ++ [w] } else s

/-- A frame as the line carries it: its bytes, on the express MAC, unharmed. -/
def wireOf (bytes : List Byte) : WireFrame :=
  { bytes, preemptable := false, assemblyErr := false, smdErr := false, fragments := 1, pipe := none, blockErr := false,
    phy := ⟨0, 0, 0, 0, []⟩ }

/-- The START block of a frame of a data pipe (Table FL-11). -/
def startOf (f : Frame) (s : State) : PipeStart :=
  ⟨f.tc, if f.overFlock then f.srcDevid else s.sys.devid, if f.overFlock then f.srcPort else f.port0,
    stampSec f.stamp % 2 ^ 34, stampNs f.stamp, stampFrac f.stamp⟩

/-- Bytes with a START block join the data pipe of an octet: len is the LENGTH that the START block has announced (R261). -/
def pipeOut (o : Nat) (x : PipeStart) (len : Nat) (bytes : List Byte) (s : State) : State :=
  s.setLink o { s.link o with txData := (s.link o).txData ++ pipeBlocks x len bytes }

/-- A frame leaves on a front port, on a data pipe behind its START block, whose blocks then go in the data slots of the
octet (R261); a near-end loopback returns it (R53). DESIGN CHOICE, log entry 110. -/
def sendOut (p : Nat) (f : Frame) (bytes : List Byte) (cut : Bool) (s : State) : State :=
  let w := { wireOf bytes with preemptable := f.loc == .tx p false && preemptActive p s, fragments := f.frags + 1 }
  if isPipe p s then
    let x := startOf f s
    loopBack p { w with pipe := some x, blockErr := cut }
      (lineOut p (.pipe p x bytes cut) (pipeOut (p / 8) x (f.sendBody.length + 4) bytes s))
  else loopBack p w (lineOut p (.frame p bytes cut) s)

/-- Preemption counts of a frame that has been interrupted (Table EP-10). -/
def countFragments (p : Nat) (f : Frame) (s : State) : State :=
  if f.frags == 0 then s else countPort p 91 (f.frags + 1) (countPort p 92 1 s)

/-- A frame in transmission is cut off after some bytes: truncated with a stomped FCS, its record with a reason at its
tail (R34, R82). The bytes sent before the cut are a value the manual leaves open. DEDUCED, log entry 26. -/
def cutOff (f : Frame) (reason : Nat) (s : State) : State :=
  let (v, s) := s.draw
  let n := v % (f.sendBody.length + 1)
  let p := f.egress
  let s := sendOut p f (withStomp (f.sendBody.take n)) true s
  let s := countFragments p f (countPort p 89 1 (if reason == drPortDown then countPort p 90 1 s else s))
  let s := perfEvent 0x01 0x02 p 1 s
  let s := correctSent p f (n + 4) s
  if f.ended then
    let (f, s) := unstore f s
    finish f tmStomped reason (n + 4) s
  else s.setFrame { f with loc := .tail, stomp := reason, sentLen := n + 4 }

/-- The frames of a port's queues, queue by queue, each from its head. -/
def portFrames (p : Nat) (s : State) : List Frame := (busyQueues p s).flatMap fun q => s.queue q

/-- A queued frame leaves in a flush: with its tail at once, else its record and release follow at its tail (R188). -/
def flushFrame (f : Frame) (s : State) : State :=
  if f.ended then dropQueued f drPortDown s
  else departed f.qnum (s.pushFrame { f with loc := .tail, bad := drPortDown })

/-- The port enters FLUSH: every queue of it is walked (R188). -/
def enterFlush (p : Nat) (s : State) : State :=
  let s := s.setPort p { s.port p with since := s.frc, closing := false }
  pump ((portFrames p s).foldl (fun s f => flushFrame f s) (s.put F.portStatus_STATE p 4))

/-- A MAC of the port transmits. -/
def portBusy (p : Nat) (s : State) : Bool := s.frames.any fun f => f.loc == .tx p true || f.loc == .tx p false

/-- The PCS of a port stops: no link, no FEC lock, no high bit error rate. DEDUCED, log entry 24. -/
def pcsStop (p : Nat) (s : State) : State :=
  s.puts p [(F.portStatus_LINK, 0), (F.portStatus_FEC_LOCK, 0), (F.portStatus_HI_BER, 0)]

/-- A closing port whose frame in transmission is complete stops its PCS and enters FLUSH (R84). -/
def portClose (p : Nat) (s : State) : State :=
  if (s.port p).closing && !portBusy p s then enterFlush p (pcsStop p s) else s

/-! ## PAUSE and PFC (R70, R71) -/

/-- The classes that the paused priorities hold (R201). -/
def showPaused (p : Nat) (s : State) : State :=
  let held := ((s.port p).pauses.map (·.1)).foldl (fun m i => setBit m i true) 0
  let map := s.get F.portFc_TC_PRIO p
  let tcs := (List.range 8).foldl (fun m t => setBit m t (bit held (map / 2 ^ (3 * t) % 8))) 0
  let s := if s.get F.portSched_PAUSED_TC p == 0 && tcs != 0 then perfEvent 0x01 0x03 p 1 s else s
  let s := s.put F.portStatus_RX_PAUSED p held
  refreshActive p (s.put F.portSched_PAUSED_TC p tcs)

/-- A priority is paused for a number of quanta; 0 releases it. -/
def pausePrio (p i quanta : Nat) (s : State) : State :=
  let x := s.port p
  let ps := x.pauses.filter (·.1 != i)
  let ps := if quanta == 0 then ps else ps ++ [(i, s.frc + bitTime p (quanta * 512) s)]
  s.setPort p { x with pauses := ps }

/-- PAUSE_TIMER_EXPIRY of a priority (R71). With PAUSE all priorities run on one time. -/
def pauseExpiryDo (p i : Nat) (s : State) : State :=
  let x := s.port p
  let all := s.get F.portFc_FC_MODE p == 1
  let due (e : Nat × Nat) : Bool := e.2 ≤ s.frc && (all || e.1 == i)
  if x.pauses.any due then
    showPaused p (s.setPort p { x with pauses := x.pauses.filter fun e => !due e })
  else s

/-- The destination of flow-control frames. -/
def fcDmac : List Byte := [0x01, 0x80, 0xC2, 0x00, 0x00, 0x01]

/-- A received control frame with EtherType 0x8808, otherwise good, is consumed (R71, R72). DEDUCED, log entry 45. -/
def takeControl (p : Nat) (bs : List Byte) (s : State) : State :=
  let op := be16 bs 14
  let mode := s.get F.portFc_FC_MODE p
  let dst := bs.take 6
  let mine := dst == fcDmac || dst == natBytes 6 (s.get F.portFc_SRC_MAC p)
  if mine && op == 0x0001 && mode == 1 && s.on F.portFc_PAUSE_RX p then
    showPaused p ((List.range 8).foldl (fun s i => pausePrio p i (be16 bs 16) s) (countPort p 20 1 s))
  else if mine && op == 0x0101 && mode == 2 then
    let en := be16 bs 16
    let mask := s.get F.portFc_PFC_RX_MASK p
    showPaused p ((List.range 8).foldl (fun s i =>
      if bit en i then
        let q := be16 bs (18 + 2 * i)
        let s := if q == 0 then s else countPort p (22 + i) 1 s
        if bit mask i then pausePrio p i q s else s
      else s) (countPort p 21 1 s))
  else countPort p 30 1 s

/-- The XOFF priorities that a port signals: masked ones in PFC mode, all or none in PAUSE mode. -/
def fcWanted (p : Nat) (s : State) : Nat :=
  let x := s.get F.portStatus_TX_XOFF p
  match s.get F.portFc_FC_MODE p with
  | 1 => if s.on F.portFc_PAUSE_TX p && x != 0 then 255 else 0
  | 2 => ((List.range 8).filter fun i => bit x i && bit (s.get F.portFc_PFC_TX_MASK p) i).foldl (fun m i => m + 2 ^ i) 0
  | _ => 0

/-- The port can send a control frame now: UP or HOLD, its transmitters running, between data frames, or, while preemption
is active, on the express MAC, which interrupts a preemptable frame (R70, R75, Table EP-12). -/
def fcSends (p : Nat) (s : State) : Bool :=
  [2, 5].contains (s.get F.portStatus_STATE p) && !s.flt.fatal && portDrives p s && !expressBusy p s &&
    if preemptActive p s then canInterrupt p s else (preemptFrame p s).isNone

/-- A flow-control frame: the enabled priorities and which of them are in XOFF (R70). -/
def fcFrame (p en now : Nat) (s : State) : List Byte :=
  let q := s.get F.portFc_QUANTA p
  let hd := fcDmac ++ natBytes 6 (s.get F.portFc_SRC_MAC p) ++ natBytes 2 0x8808
  let body := if s.get F.portFc_FC_MODE p == 1 then hd ++ natBytes 2 1 ++ natBytes 2 (if now == 0 then 0 else q)
    else hd ++ natBytes 2 0x0101 ++ natBytes 2 en ++
      (List.range 8).flatMap fun i => natBytes 2 (if bit en i && bit now i then q else 0)
  withFcs (padBody body)

/-- A flow-control frame sent and counted; it is due again REFRESH quanta later while a priority is in XOFF. A preemptable
frame that it interrupts resumes behind it. DEDUCED, log entry 45. -/
def fcSend (p en now : Nat) (s : State) : State :=
  let due := if now == 0 then none else some (s.frc + bitTime p (s.get F.portFc_REFRESH p * 512) s)
  let bs := fcFrame p en now s
  let s := settlePreempt p (if preemptActive p s then interrupt p s else s)
  let s := s.setPort p { s.port p with fcDue := due }
  let s := perfEvent 0x01 0x02 p 1 (loopBack p (wireOf bs) (lineOut p (.flowControl p bs) s))
  if s.get F.portFc_FC_MODE p == 1 then countPort p 79 1 s
  else (List.range 8).foldl (fun s i =>
    if bit en i && bit now i && 0 < s.get F.portFc_QUANTA p then countPort p (81 + i) 1 s else s) (countPort p 80 1 s)

/-- FLOW_CONTROL_FRAME_SEND: the XOFF state that the port signals has changed (R70). -/
def fcSendDo (p : Nat) (s : State) : State :=
  let now := fcWanted p s
  let sent := (s.port p).fcSent
  if now != sent && fcSends p s && s.get F.portFc_FC_MODE p != 0 then
    fcSend p ((List.range 8).foldl (fun m i => setBit m i (bit now i || bit sent i)) 0) now
      (s.setPort p { s.port p with fcSent := now })
  else s

/-- FLOW_CONTROL_REFRESH: the frame again, with the XOFF priorities only; a change of the XOFF state that no frame has
signalled yet still gets its own (R70). -/
def fcRefreshDo (p : Nat) (s : State) : State :=
  let now := fcWanted p s
  match (s.port p).fcDue with
  | some t => if t ≤ s.frc && now != 0 && fcSends p s then fcSend p now now s else s
  | none => s

/-! ## Preemption (R74) -/

/-- PREEMPT_ACTIVE follows the settings and the verify state. -/
def showPreempt (p : Nat) (s : State) : State :=
  let a := s.on F.portPreempt_PREEMPT_EN p &&
    (s.on F.portPreempt_VERIFY_DIS p || s.get F.portStatus_VERIFY p == 2)
  gatesMoved p (s.put F.portStatus_PREEMPT_ACTIVE p (b2n a))

/-- The verify exchange starts afresh, or is off. -/
def startVerify (p : Nat) (s : State) : State :=
  let on := s.on F.portPreempt_PREEMPT_EN p && !s.on F.portPreempt_VERIFY_DIS p
  let s := s.setPort p { s.port p with verTries := 0, verDue := s.frc }
  showPreempt p (s.put F.portStatus_VERIFY p (b2n on))

/-- PREEMPT_VERIFY_TIMER: up to three verify packets, VERIFY_TIME apart, then failed. -/
def verifyTimerDo (p : Nat) (s : State) : State :=
  let x := s.port p
  if s.get F.portStatus_VERIFY p != 1 || s.frc < x.verDue || !s.on F.portStatus_LINK p then s
  else if x.verTries < 3 then
    lineOut p (.verify p)
      (s.setPort p { x with verTries := x.verTries + 1, verDue := s.frc + s.get F.portPreempt_VERIFY_TIME p * 10 ^ 6 })
  else showPreempt p (s.put F.portStatus_VERIFY p 3)

/-- PREEMPT_VERIFY_RESPONSE: a valid response. -/
def verifyResponseDo (p : Nat) (s : State) : State :=
  if s.get F.portStatus_VERIFY p == 1 && 0 < (s.port p).verTries then showPreempt p (s.put F.portStatus_VERIFY p 2) else s

/-! ## Port states (R81 to R85, R262) -/

/-- The port is used: it has a speed, or it is a data pipe. -/
def portUsed (p : Nat) (s : State) : Bool := s.get F.portCfg_SPEED p != 0 || isPipe p s

/-- The port runs: its live ENABLE is 1 (R84, Table EP-12). -/
def portRuns (p : Nat) (s : State) : Bool := s.on F.portCfg_ENABLE p

/-- A port state entered now. -/
def toState (p st : Nat) (s : State) : State :=
  refreshActive p ((s.put F.portStatus_STATE p st).setPort p { s.port p with since := s.frc })

/-- The link of a data pipe is up (R262). -/
def pipeUp (p : Nat) (s : State) : Bool :=
  let o := p / 8
  s.on F.linkStatus_IN_FRAME o && !s.on F.linkStatus_LOS o && !s.on F.linkStatus_LOF o && !s.on F.linkStatus_LOM o &&
    !s.on F.linkStatus_AIS o

/-- A status that a link event leaves open. DEDUCED, log entry 23. -/
def openBits (p : Nat) (fs : List Fld) (s : State) : State := fs.foldl (fun s f => s.putFree f p) s

/-- The state of a port whose link is lost: UP to DEBOUNCE, HOLD to DOWN (Table EP-12). -/
def stateLost (p : Nat) (s : State) : State :=
  if s.get F.portStatus_STATE p == 2 then toState p 3 s
  else if s.get F.portStatus_STATE p == 5 then toState p 1 s
  else s

/-- The state of a port whose link comes up: DEBOUNCE to UP, a bounce, DOWN to HOLD (Table EP-12). -/
def stateFound (p : Nat) (s : State) : State :=
  if s.get F.portStatus_STATE p == 3 then toState p 2 (s.inc F.portStatus_BOUNCES p)
  else if s.get F.portStatus_STATE p == 1 then toState p 5 s
  else s

/-- LINK_LOSS (R82, Table EP-12): data stops, the frame in transmission is cut off, received pauses are cleared. It comes
while a port that is being disabled completes its last frame, too (R84); a near-end loopback hears no loss of the line
(R53). DEDUCED, log entry 23. -/
def linkLossDo (p : Nat) (s : State) : State :=
  if !(portRuns p s || (s.port p).closing) || !s.on F.portStatus_LINK p || (isPipe p s && pipeUp p s) ||
      (!isPipe p s && hearsLoop (frontLanes p s) s) then s
  else
    let s := s.put F.portStatus_LINK p 0
    let s := if isPipe p s then s
      else
        let s := openBits p [F.portStatus_LOCAL_FAULT, F.portStatus_REMOTE_FAULT, F.portStatus_HI_BER,
          F.portStatus_FEC_LOCK] s
        (frontLanes p s).foldl (fun s l =>
          let s := s.putFree F.pcsLane_AM_LOCK l
          if laneUp l s then (s.putFree F.laneStatus_SIG_DET l).putFree F.laneStatus_CDR_LOCK l else s) s
    let s := showPaused p (s.setPort p { s.port p with pauses := [] })
    let s := (s.frames.filter fun f => f.loc == .tx p true || f.loc == .tx p false).foldl
      (fun s f => cutOff f drPortDown s) s
    pump (if (s.port p).closing then portClose p s else stateLost p s)

/-- LINK_UP (R81, R83); an unused port has no link, nor has one whose lanes do not all run (R54). DEDUCED, log entry 24. -/
def linkUpDo (p : Nat) (s : State) : State :=
  if !portRuns p s || !portUsed p s || (s.port p).closing || s.on F.portStatus_LINK p ||
      !((frontLanes p s).all fun l => laneUp l s) || (isPipe p s && !pipeUp p s) then s
  else
    let s := s.put F.portStatus_LINK p 1
    let s := if isPipe p s then s
      else
        let s := s.puts p [(F.portStatus_LOCAL_FAULT, 0), (F.portStatus_HI_BER, 0),
          (F.portStatus_FEC_LOCK, b2n (s.get F.portCfg_FEC p != 0))]
        let s := s.putFree F.portStatus_REMOTE_FAULT p
        (frontLanes p s).foldl (fun s l =>
          ((s.put F.pcsLane_AM_LOCK l 1).puts l [(F.laneStatus_SIG_DET, 1), (F.laneStatus_CDR_LOCK, 1)]).putFree
            F.pcsLane_SKEW l) s
    stateFound p (startVerify p s)

/-- DEBOUNCE_END (R83). -/
def debounceEndDo (p : Nat) (s : State) : State :=
  if s.get F.portStatus_STATE p == 3 && (s.port p).since + s.get F.portCfg_DEBOUNCE p * 1000 ≤ s.frc then
    enterFlush p (s.inc F.portStatus_LINK_DOWNS p)
  else s

/-- PORT_FLUSH_COMPLETE: all 64 queues are empty (R188, Table EP-12). The hold counts from now, or from a later link-up. -/
def flushCompleteDo (p : Nat) (s : State) : State :=
  if s.get F.portStatus_STATE p == 4 && (busyQueues p s).isEmpty then
    if !portRuns p s then toState p 0 (s.put F.portStatus_LINK p 0)
    else if s.on F.portStatus_LINK p then toState p 5 s
    else toState p 1 s
  else s

/-- HOLD_END. -/
def holdEndDo (p : Nat) (s : State) : State :=
  if s.get F.portStatus_STATE p == 5 && (s.port p).since + s.get F.portCfg_HOLD p * 1000 ≤ s.frc then toState p 2 s else s

/-! ## COMMIT of unit PORTS (R59 to R62, R69, R84) -/

/-- The rows of Table EP-3: speed, lanes, lane RATE, FEC codes allowed. -/
def speedRows : List (Nat × Nat × Nat × List Nat) :=
  [(1, 1, 1, [0]), (2, 1, 2, [0, 1]), (3, 1, 3, [2]), (4, 4, 2, [0, 1]), (4, 2, 3, [2]), (4, 1, 4, [2]), (5, 4, 3, [2]),
   (5, 2, 4, [2]), (5, 1, 5, [2]), (6, 8, 3, [2]), (6, 4, 4, [2]), (6, 2, 5, [2]), (7, 8, 4, [2]), (7, 4, 5, [2]),
   (8, 8, 5, [2])]

/-- A port's fields hold no reserved code and no value outside its range. -/
def portFieldsOk (g : Fld → Nat → Nat) (p : Nat) : Bool :=
  let mf := g F.portCfg_MAX_FRAME p
  let vt := g F.portPreempt_VERIFY_TIME p
  g F.portCfg_SPEED p ≤ 8 && g F.portCfg_FEC p != 3 && 256 ≤ mf && mf ≤ 10240 && g F.portCfg_DEBOUNCE p ≤ 10000 &&
    g F.portCfg_HOLD p ≤ 100000 && g F.portFc_FC_MODE p != 3 && 1 ≤ vt && vt ≤ 128 &&
    ((g F.portFc_PFC_TX_MASK p == 0 && g F.portFc_PAUSE_TX p == 0) ||
      (1 ≤ g F.portFc_REFRESH p && g F.portFc_REFRESH p < g F.portFc_QUANTA p && !bit (g F.portFc_SRC_MAC p) 40))

/-- A used port keeps R59 and R60 and fits its lanes. -/
def placementOk (g : Fld → Nat → Nat) (p : Nat) : Bool :=
  let sp := g F.portCfg_SPEED p
  let n := 2 ^ g F.portCfg_NLANES p
  sp == 0 ||
    (p % 8 % n == 0 && g F.octetCfg_MODE (p / 8) == 1 &&
      (rangeFrom (p + 1) (n - 1)).all (fun q => g F.portCfg_SPEED q == 0) &&
      speedRows.any fun r => r.1 == sp && r.2.1 == n && r.2.2.2.contains (g F.portCfg_FEC p) &&
        (rangeFrom p n).all fun l => g F.laneCfg_RATE l == r.2.2.1)

/-- A port's gate objects, checked only with GATE_EN 1 (R61). -/
def gatesOk (g : Fld → Nat → Nat) (p : Nat) : Bool :=
  let n := g F.gateCfg_LIST_LEN p
  let c := g F.gateCfg_CYCLE_TIME p
  g F.gateCfg_GATE_EN p == 0 ||
    (1 ≤ n && n ≤ 256 && g F.gateCfg_BASE_NS p ≤ 999999999 && 256 ≤ c && c ≤ 1000000000 &&
      (rangeFrom (p * 256) n).all fun e => g F.gateEntry_OP e != 3 && 64 ≤ g F.gateEntry_INTERVAL e)

/-- The ports that have an object of unit PORTS in a store. -/
def portsListed (s : State) : List Nat :=
  (eitherListed .portCfg s ++ eitherListed .portFc s ++ eitherListed .portPreempt s ++ eitherListed .gateCfg s ++
    (eitherListed .gateEntry s).map (· / 256)).eraseDups

/-- Unit PORTS passes its COMMIT check. -/
def portsOk (us : List Nat) (s : State) : Bool :=
  let g := s.eff us
  (portsListed s).all fun p => portFieldsOk g p && placementOk g p && gatesOk g p

/-- A gate field of a port differs between two states. DEDUCED, log entry 19. -/
def gatesChanged (old s : State) (p : Nat) : Bool :=
  old.obj .gateCfg p != s.obj .gateCfg p ||
    (rangeFrom (p * 256) 256).any fun e => old.obj .gateEntry e != s.obj .gateEntry e

/-- Administrative disable: the frame in transmission is completed, then the port flushes (R84). -/
def portDisable (p : Nat) (s : State) : State :=
  if s.get F.portStatus_STATE p == 0 then s
  else portClose p (s.setPort p { s.port p with closing := true })

/-- What a COMMIT of unit PORTS does to a port, from the settings before (R62, R69, R77, R84). Received pauses in force stay,
whatever becomes of FC_MODE and of the receive enables, and through an administrative disable. DESIGN CHOICE, log entry
112. -/
def portCommitted (old : State) (p : Nat) (s : State) : State :=
  let changed := old.get F.portCfg_SPEED p != s.get F.portCfg_SPEED p ||
    old.get F.portCfg_NLANES p != s.get F.portCfg_NLANES p || old.get F.portCfg_FEC p != s.get F.portCfg_FEC p
  let was := portRuns p old
  let runs := portRuns p s
  let s := if was && (!runs || changed) then portDisable p s
    else if runs && !was && s.get F.portStatus_STATE p == 0 then toState p 1 s
    else s
  let s := if old.get F.portPreempt_PREEMPT_EN p != s.get F.portPreempt_PREEMPT_EN p ||
      old.get F.portPreempt_VERIFY_DIS p != s.get F.portPreempt_VERIFY_DIS p then startVerify p s else s
  let s := if gatesChanged old s p then gatesMoved p (gateCommit p s) else s
  showPaused p s

/-- What a COMMIT of unit PORTS does beside making its settings live. -/
def portsCommitted (old s : State) : State :=
  pump ((portsListed old ++ portsListed s).eraseDups.foldl (fun s p => portCommitted old p s) s)

end Sys2Proof.Machine
end

