-- ==== Sys2Proof/Machine/Pens.lean ====
section
/-! DEFINITION. Machine/Pens.lean: dispatch by the drove, the work of a pen on a frame, the race, and the release to the
fold (R89 to R115, R117, R139, R148 to R150, R158, R174 to R180, R191, R192, R225, R286, R351). -/

namespace Sys2Proof.Machine

open Sys2Proof

/-! ## Release to the fold (R28, R66, R177, R182) -/

/-- The queue of class t of a port for a flow hash (R192). -/
def classQueue (p t h : Nat) (s : State) : Nat :=
  portQueue p (s.get F.classCfg_FIRST_Q (p * 8 + t) + hashPick (rotl32 h 8) (s.get F.classCfg_NQ (p * 8 + t)))

/-- A frame goes cut-through, as it stands when it is about to be enqueued (R28, R66). Whether its tail has arrived plays
no part (R195); the tail outcome goes by whether egress has begun (R177). DEDUCED, log entry 101. -/
def cutThrough (f : Frame) (s : State) : Bool :=
  let e := portRate f.egress s
  let i := portRate f.inPort s
  f.egress < 1024 && f.inPort < 1024 && s.on F.portCfg_CT_EN f.egress && !f.preempted &&
    (s.queue f.qnum).isEmpty && e.1 * i.2 ≤ i.1 * e.2

/-- The charge of a stored frame becomes that of its received length (R180, R183). -/
def recharge (f : Frame) (n : Nat) (s : State) : Frame × State :=
  let c := buOf n
  let s := if f.charge < c then raiseBu f.req (c - f.charge) s
    else if c < f.charge then releaseBu f.req (f.charge - c) s else s
  ({ f with charge := c }, s.setFrame { f with charge := c })

/-- LEN_SHORT and LEN_MISMATCH at the good tail of a frame of FIELD prediction (R105, Table FB-4), counted. Copies carry
none. DESIGN CHOICE, log entry 122. -/
def lenFlags (f : Frame) (s : State) : Frame × State :=
  let l := f.bytes.length
  if f.kind != 0 || f.parse.predSrc != 1 || l == f.parse.pred then (f, s)
  else
    let flag := if l < f.parse.pred then 2 else 1
    let f := { f with parse := { f.parse with status := setBit f.parse.status flag true } }
    (f, (s.setFrame f).inc (if flag == 2 then F.foldStatus_LEN_SHORT else F.foldStatus_LEN_MISMATCH) 0)

/-- A frame in a queue is trapped by LM_ACTION: it goes to host port 1024 only, with its class, and so store-and-forward
(Table PS-10, R28). -/
def moveToHost (f : Frame) (s : State) : State :=
  let q := f.qnum
  let (f, s) := unhold f s
  let t := { f with loc := .race, egress := 1024, trap := true, cut := false, qnum := classQueue 1024 f.tc f.hash s }
  enqueue t (departed q (s.setFrame t))

/-- The tail of a stored frame: the cells that its length still needs, as many as pool B gives, then its charge and its
length flags (R176, R177, R180). The answer is DR_QUOTA where pool B did not give all, DR_ECC where a bitmap word is
uncorrectable, else 0. A frame cut short before asks for no further cell. -/
def settleTail (f : Frame) (l : Nat) (s : State) : Nat × Frame × State :=
  let n := f.cells.length
  let (all, s) := chainAll (if f.sentLen == 0 then chainNeed f l else 0) f (s.setFrame f)
  let f := (s.frame f.id).getD f
  let (s, bad) := mapWords (f.cells.drop n) s
  let (f, s) := recharge f l s
  let (f, s) := lenFlags f s
  (if !all then drQuota else if bad then drEcc else 0, f, s)

/-- LEN_MISMATCH decides the fate of a frame in a queue: LM_ACTION as its dispatch found it (R25, R177). The length checks
do not decide that of an in-band command frame (R286). -/
def mismatchActs (f : Frame) : Bool := bit f.parse.status 1 && !f.command

/-- The tail of a frame that waits in a queue (Table FB-4, store-and-forward): a refused chain is a DR_QUOTA drop of its
requester (Table FB-10). -/
def tailQueued (f : Frame) (s : State) : State :=
  if f.bad != 0 then dropQueued f f.bad s
  else
    let (r, f, s) := settleTail f (truncLen f f.bytes.length) s
    if r == drQuota then dropQueued f drQuota (quotaDropped f.req (s.inc F.foldStatus_CHAIN_FAIL 0))
    else if r == drEcc then dropQueued f drEcc s
    else if mismatchActs f && f.lmAct == 0 then dropQueued f drLenMismatch s
    else if mismatchActs f && f.lmAct == 1 then moveToHost f s
    else refreshActive (queuePort f.qnum) s

/-- One frame or copy that the race releases: the fold admits it or drops it (R182, R179 step 1); a tail that has arrived
already is settled at once. A copy of pass 3 that would take a fifth pass is refused (R165). DEDUCED, log entry 119. -/
def foldTake (f : Frame) (s : State) : State :=
  let f := { f with relFrc := s.frc }
  let (f, s) := if f.egress == 1025 then (f, s) else unhold f s
  let s := s.setFrame f
  if s.on F.foldStatus_RECOVERING 0 then dropWhole f drEcc s
  else if f.bad != 0 then dropWhole f f.bad s
  else if f.egress == 1025 && 3 ≤ f.pass then dropWhole f drRule (s.inc F.actStatus_RECIRC_LIMIT 0)
  else
    let f := { f with cut := cutThrough f s }
    match admitFrame f f.req (truncLen f f.parse.pred) s with
    | (none, s) =>
      match s.frame f.id with
      | some f => if f.ended then tailQueued f s else s
      | none => s
    | (some r, s) => dropWhole f r s

/-! ## The race (R110 to R113) -/

/-- One item at HEAD_SEQ is released: a skip token, or a frame with its copies; an entry that fails its check drops the
frame as DR_ECC (R33). -/
def raceTake (f : Frame) (s : State) : State :=
  if f.loc == .skip then (unhold f s).2.dropFrame f.id
  else
    let copies := s.frames.filter fun c => c.loc == .copyOf f.id
    let (s, bad) := evalWord (instOf 0x04 96) (f.inPort * 4096 + f.seq % 4096) s
    let s := if bad then dropWhole f drEcc s else foldTake f s
    copies.foldl (fun s c => foldTake c s) s

/-- The race releases what it can of a port, in sequence order; the fuel bounds the run. -/
def raceRun : Nat → Nat → State → State
  | 0, _, s => s
  | n + 1, p, s =>
    let head := s.get F.racePort_HEAD_SEQ p
    match s.frames.find? fun f => f.inPort == p && f.seq == head && (f.loc == .race || f.loc == .skip) with
    | none => s
    | some f => raceRun n p (raceTake f (s.put F.racePort_HEAD_SEQ p (head + 1)))

/-- The race releases every frame of a port that it can. -/
def raceAll (p : Nat) (s : State) : State := raceRun (s.frames.length + 1) p s

/-- A frame dropped in a pen leaves a skip token (R111), which takes over its earmark. -/
def dropInPen (f : Frame) (reason : Nat) (s : State) : State :=
  let (id, s) := newId s
  let token := { blankFrame id with
    loc := .skip
    kind := 3
    inPort := f.inPort
    seq := f.seq
    pen := f.pen
    disp := f.disp
    earmark := f.earmark
    ver := f.ver
    holds := f.holds
    ended := true }
  dropWhole { f with holds := false, egress := noPort, qnum := noQueue } reason (s.pushFrame token)

/-- The race writes the record of a sequence number that it releases without its frame (R112, R215): the fields that the
manual gives no source for are open. lost: the pen and the ingress time did not survive. DEDUCED, log entry 51. -/
def raceRecord (f : Frame) (lost : Bool) (s : State) : State :=
  let (v, s) := s.draw
  let g := { f with
    egress := noPort
    qnum := noQueue
    pen := if lost then none else f.pen
    stamp := if lost then 0 else f.stamp
    len0 := if f.ended then f.len0 else v % 2 ^ 14
    parse := { f.parse with shape := v / 2 ^ 14 % 2 ^ 10, status := v / 2 ^ 24 % 2 ^ 16 }
    hash := v / 2 ^ 40 % 2 ^ 32
    tc := v / 2 ^ 72 % 8
    colour := v / 2 ^ 75 % 3
    doneFrc := 0
    relFrc := 0 }
  let s := if f.twoStep then tsCapture { outcome := 1, port := noPort, tag := f.tsTag, stamp := 0 } s else s
  writeRecord g tmDropped drRaceTimeout 0 false s

/-- A frame whose record the race has written: it is gone, or waits for its tail without a record, or is still in its
pen. -/
def orphan (f : Frame) (s : State) : State :=
  let (f, s) := unhold f s
  let f := { f with kind := 3, twoStep := false }
  if f.loc == .pen then s.setFrame f
  else if f.ended then s.dropFrame f.id
  else s.setFrame { f with loc := .tail }

/-- A completion whose sequence number has been released already (R113). -/
def lateDiscard (f : Frame) (s : State) : State :=
  let s := s.inc F.racePort_LATE f.inPort
  let (f, s) := unhold f s
  if f.ended then s.dropFrame f.id else s.pushFrame { f with loc := .tail, kind := 3, twoStep := false }

/-! ## The drove (R89, R90, R114, R163) -/

/-- PENn receives frames (Table PS-4 ACTIVE). -/
def penActive (n : Nat) (s : State) : Bool := bit (s.get F.droveCfg_PEN_MASK 0) n && !s.isolated (instOf 0x04 n)

/-- PENn holds a free credit: it has as many as Config fixes, one for each frame in it. DESIGN CHOICE, log entry 48. -/
def penCredit (n : Nat) (s : State) : Bool :=
  (s.frames.filter fun f => f.loc == .pen && f.pen == some n).length < Config.penCredits n + 1

/-- The active pens in turn from the last one used. -/
def pensInTurn (s : State) : List Nat :=
  ((rangeFrom 1 96).map fun k => (s.lastPen + k) % 96).filter fun n => penActive n s

/-- The first active pen after the last one used that holds a free credit. DESIGN CHOICE, log entry 16. -/
def nextPen (s : State) : Option Nat := (pensInTurn s).find? fun n => penCredit n s

/-- The pens that are passed over for lack of credit each have their event (R90, Table TM-14). -/
def passedOver (s : State) : State :=
  ((pensInTurn s).takeWhile fun n => !penCredit n s).foldl (fun t n => perfEvent 0x03 0x01 n 1 t) s

/-- The metadata of a frame's pass (Table PS-6). -/
def frameMeta (f : Frame) : Meta :=
  { inPort := f.port0, fromHost := f.port0 == 1024, recirc := f.inPort == 1025, pass := f.pass }

/-- Window occupancy of a port (Table PS-17). -/
def occupancy (p : Nat) (s : State) : Nat :=
  (s.get F.racePort_NEXT_SEQ p + 65536 - s.get F.racePort_HEAD_SEQ p) % 65536

/-- The drove hands a frame to a pen: sequence number, earmark, time. The parse configuration is the one live now (R109). A
recirculated frame whose earmark has expired is dropped before any lookup (R163); its record shows its new pass (DEDUCED, log
entry 118). A frame of port 1024 or 1025 is stamped when its pass 0 is dispatched (R237; DEDUCED, log entry 123). -/
def dispatchNow (f : Frame) (n : Nat) (s : State) : State :=
  let p := f.inPort
  let seq := s.get F.racePort_NEXT_SEQ p
  let s := ({ s with lastPen := n }).put F.racePort_NEXT_SEQ p (seq + 1)
  let s := if s.frames.any fun g => g.loc == .pen && g.pen == some n then s else perfEvent 0x04 0x02 n 1 s
  let x := parse (frameMeta f) f.bytes s
  let f := { f with
    seq
    pen := some n
    disp := s.frc
    loc := .pen
    win := .opening
    doneFrc := 0
    relFrc := 0
    parse := x
    malAct := s.get F.shapeCtrl_MAL_ACTION x.shape
    lmAct := s.get F.shapeCtrl_LM_ACTION x.shape
    raceTo := s.get F.raceCfg_RACE_TIMEOUT 0 }
  if f.pass != 0 then
    if earmarkExpired f s then
      let (f, s) := unhold { f with hash := flowHash x.shape x.fields f.port0 s } s
      raceAll p (dropInPen f drVersionExpired ((s.inc F.versionStatus_EXPIRED 0).setFrame f))
    else
      let s := if f.holds then s else holdSlot f.earmark s
      s.setFrame { f with holds := true }
  else
    let k := currentSlot s
    let f := if p == 1024 || p == 1025 then { f with stamp := s.tod16, inFrc := s.frc } else f
    (holdSlot k s).setFrame { f with
      seq0 := seq
      earmark := k
      ver := currentVer s
      holds := true }

/-- A received MAC control frame (R72). -/
def isControl (f : Frame) : Bool := f.inPort < 1024 && be16 f.bytes 12 == 0x8808

/-- The frames that a port is receiving, the newest first. -/
def receiving (p : Nat) (s : State) : List Frame :=
  (sortBy (·.id) (s.frames.filter fun f => f.wire == f.id && f.inPort == p && f.pass == 0 && !f.ended)).reverse

/-- The frame whose bytes a port is receiving now: an express frame interrupts a preemptable one. -/
def arriving (p : Nat) (s : State) : Option Frame := (receiving p s).head?

/-- The frame of a port whose header window completes at the next event: the first among those that ended with their
window's completion, for at 256 bytes or less the MAC checks a frame first (R29), else the longer frame whose bytes are
arriving. An interrupted frame completes no window. -/
def windowFrame (p : Nat) (s : State) : Option Frame :=
  let frames := s.frames.filterMap fun f => match f.loc, f.win with
    | .mac, .complete k => if f.inPort == p then some (k, f) else none
    | _, _ => none
  match sortBy (·.1) frames with
  | e :: _ => some e.2
  | [] => (arriving p s).filter fun f => f.loc == .mac && f.win == .opening && 256 < f.bytes.length && !isControl f

/-- The frames that wait for the drove, in the order in which their header windows completed; those of one nanosecond in
ascending port order (R90). An express frame goes before the frame that it interrupts where its window completes first,
although R22 speaks of first bits. DEDUCED, log entry 92. -/
def droveQueue (s : State) : List Frame :=
  let waits := s.frames.filterMap fun f => match f.loc, f.win with
    | .mac, .waits t k _ => some ((t, f.inPort, k), f)
    | _, _ => none
  (sortBy (fun e => e.1.1) (sortBy (fun e => e.1.2.1) (sortBy (fun e => e.1.2.2) waits))).map (·.2)

/-- A full reorder window holds a dispatch and counts it once (R114). -/
def stallOne (f : Frame) (s : State) : State :=
  match f.win with
  | .waits t k false =>
    if 4096 ≤ occupancy f.inPort s then
      (s.inc F.racePort_WIN_STALLS f.inPort).setFrame { f with win := .waits t k true }
    else s
  | _ => s

/-- The drove takes the first frame in order whose window has room, if a pen has a credit for it; a header hop that fails
drops the frame. -/
def droveTake (f : Frame) (n : Nat) (s : State) : State :=
  let (s, bad) := evalHop (instOf 0x03 0) 0 (min 256 f.bytes.length) s
  if bad then dropWhole f drEcc s else dispatchNow f n (passedOver s)

/-- The drove dispatches what it can. -/
def droveRun : Nat → State → State
  | 0, s => s
  | n + 1, s =>
    let s := (droveQueue s).foldl (fun s f => stallOne f s) s
    match (droveQueue s).find? fun f => occupancy f.inPort s < 4096, nextPen s with
    | some f, some k => droveRun n (droveTake f k s)
    | _, _ => s

/-- The drove goes on with the windows that wait; after a fatal fault it dispatches nothing (R329). -/
def drove (s : State) : State := if s.flt.fatal then s else pump (droveRun (s.frames.length + 1) s)

/-- HEADER_WINDOW_COMPLETE. DEDUCED, log entry 92. -/
def headerWindowDo (p : Nat) (s : State) : State :=
  match windowFrame p s with
  | some f =>
    let (k, s) := newId s
    drove (s.setFrame { f with win := .waits s.frc k false })
  | none => s

/-! ## The work of a pen -/

/-- A worker that is not joined drops frames (R351). -/
def quarantined (s : State) : Bool := s.get F.roleCfg_ROLE 0 == 1 && s.get F.identStatus_STATE 0 != 1

/-- The offset of the command packet in an in-band command frame, where a frame is one (R286). -/
def commandAt (f : Frame) (s : State) : Option Nat :=
  let w := headerWindow f.bytes
  let tag (i : Nat) : Bool := be16 w i == 0x8100 || be16 w i == 0x88A8
  match f.parse.mark 0x0D with
  | none => none
  | some o =>
    if s.on F.cmdCfg_INB_EN 0 && f.inPort < 1024 && w.take 6 == natBytes 6 (s.get F.cmdCfg_CMD_MAC 0) &&
        be16 w (o - 2) == 0x88B5 && (o == 14 || (o == 18 && tag 12) || (o == 22 && tag 12 && tag 16)) then some o
    else none

/-- The class of a frame that no result, session or policer changes (R191 steps 3 to 5). -/
def baseTc (f : Frame) (s : State) : Nat :=
  if f.inPort < 1024 && !f.overFlock then ingressPrio f.inPort f.parse f.bytes s else f.tc

/-- The requester of an original frame (Table FB-6). -/
def requesterOf (f : Frame) (prio : Nat) : Nat :=
  if f.inPort == 1025 || f.egress == 1025 then 8193
  else if f.inPort == 1024 then 8192
  else f.inPort * 8 + prio

/-- A frame bound for a port in a class. -/
def bound (f : Frame) (p t prio : Nat) (s : State) : Frame :=
  let f := { f with egress := p, tc := t, qnum := classQueue p t f.hash s }
  { f with req := requesterOf f prio }

/-- What the lookups of a pass have found: results in priority order (R148), what drops the frame, FID and VRF. -/
structure Found where
  results : List Result
  noRoute : Bool
  ecc : Bool
  fid : Nat
  vrf : Nat
  deriving DecidableEq, Repr

/-- A result reference that a lookup gives joins the results. -/
def Found.add (x : Found) (l : Look Nat) (s : State) : Found × Option Result × State :=
  match l with
  | .miss => (x, none, s)
  | .ecc => ({ x with ecc := true }, none, s)
  | .hit r =>
    match takeResult r s with
    | (.hit a, s) => ({ x with results := x.results ++ [a] }, some a, s)
    | (.miss, s) => ({ x with noRoute := true }, none, s)
    | (.ecc, s) => ({ x with ecc := true }, none, s)

/-- The ACL searches in ascending slice order. -/
def aclSearch (env : KeyEnv) (v : Nat) : List Nat → Found → State → Found × State
  | [], x, s => (x, s)
  | n :: ns, x, s =>
    let (l, s) := ruleSearch n (sliceKey n env s) v s
    let (x, _, s) := x.add l s
    aclSearch env v ns x s

/-- The result of a destination miss (R124). A sum that does not fit the index field of its TYPE is not well formed: past 20
bits it keeps its TYPE and has a bit above the reference (refOk). -/
def missResult (t fid : Nat) (s : State) : Nat :=
  let r := s.get F.emTable_MISS_RESULT t
  let i := refIndex r + (if s.on F.emTable_MISS_ADD_FID t then fid else 0)
  refType r * 2 ^ 20 + i % 2 ^ 20 + i / 2 ^ 20 * 2 ^ 22

/-- The forwarding lookup of a plan (R124, R132, R136): none with FWD 00. A miss drops the frame. -/
def forwardLook (plan : Nat) (env : KeyEnv) (earmark v : Nat) (s : State) : Option (Look Nat) × State :=
  match s.get F.lookupPlan_FWD plan with
  | 0 => (none, s)
  | 2 =>
    let v6 := s.on F.lookupPlan_FAMILY plan
    let a := env.fields.getD (s.get F.lookupPlan_ADDR_SLOT plan) 0
    let (l, s) := lpmLookup env.vrf v6 a earmark s
    if v6 && s.on F.rulesCfg_LONG_EN 0 then
      let (m, s) := ruleSearch (s.get F.rulesCfg_LONG_SLICE 0) (env.vrf % 4096 * 2 ^ 128 + a % 2 ^ 128) v s
      match l, m with
      | .ecc, _ => (some .ecc, s)
      | _, .ecc => (some .ecc, s)
      | _, .hit r => (some (.hit r), s)
      | l, .miss => (some l, s)
    else (some l, s)
  | _ =>
    let t := s.get F.lookupPlan_DST_TABLE plan
    match emLookup t (emKey t false env s) v s with
    | (.hit e, s) => (some (.hit e.2.result), s)
    | (.ecc, s) => (some .ecc, s)
    | (.miss, s) => (some (if s.on F.emTable_MISS_DROP t then .miss else .hit (missResult t env.fid s)), s)

/-- The source of a frame differs from the RESULT of its source entry (R139). -/
def sourceDiffers (p r : Nat) (s : State) : Bool :=
  match refType r with
  | 3 => refIndex r != p
  | 2 => !(s.on F.portAct_LAG_EN p && s.get F.portAct_LAG_GROUP p == refIndex r)
  | _ => false

/-- The source check of pass 0 (R139): whether it meets a bad word, and the stray it raises. -/
def sourceCheck (f : Frame) (env : KeyEnv) (s : State) : Bool × Option Notice × State :=
  let plan := f.parse.shape
  if f.pass != 0 || !s.on F.lookupPlan_SRC_EN plan then (false, none, s)
  else
    let t := s.get F.lookupPlan_SRC_TABLE plan
    let note (flags old : Nat) : Option Notice :=
      if s.on F.emTable_STRAY_EN t then
        (f.parse.mark 1).map fun o =>
          { seq := 0, flags, earmark := f.earmark, fid := env.fid, port := f.port0, table := t,
            addr := bytesNat (slice (headerWindow f.bytes) (o + 6) 6), stamp := f.stamp, oldResult := old,
            devid := s.sys.devid }
      else none
    match emLookup t (emKey t true env s) f.ver s with
    | (.ecc, s) => (true, none, s)
    | (.miss, s) => (false, note (2 ^ 31) 0, s)
    | (.hit e, s) => (false, if sourceDiffers f.port0 e.2.result s then note (2 ^ 30) e.2.result else none, s)

/-- The lookup plan of a shape is read: an isolated store of plans makes no access, and no lookup follows (Table FA-7). -/
def readPlan (plan : Nat) (s : State) : State × Bool :=
  if s.isolated (instOf 0x07 16) then (s, true) else evalObj .lookupPlan plan s

/-- All the lookups of a pass in the order of R117: the results in priority order, and the stray of the source check. -/
def passLookups (f : Frame) (s : State) : Found × Option Notice × State :=
  let plan := f.parse.shape
  let x : Found := { results := [], noRoute := false, ecc := false, fid := 0, vrf := 0 }
  let (s, bad) := readPlan plan s
  if bad then ({ x with ecc := true }, none, s)
  else if !s.on F.lookupPlan_VALID plan then ({ x with noRoute := true }, none, s)
  else
    let env : KeyEnv := { fields := f.parse.fields, port := f.port0, fid := 0, vrf := 0, egress := noPort }
    let n := s.get F.lookupPlan_CLS_SLICE plan
    let (l, s) := if s.on F.lookupPlan_CLS_EN plan then ruleSearch n (sliceKey n env s) f.ver s else (.miss, s)
    let (c, a, s) := x.add l s
    let (fid, vrf) := (a.bind (·.ctx)).getD (0, 0)
    let env := { env with fid, vrf }
    let (fw, s) := forwardLook plan env f.earmark f.ver s
    let (se, note, s) := sourceCheck f env s
    let slices := (List.range 16).filter fun n => bit (s.get F.lookupPlan_ACL_SLICES plan) n
    let (acl, s) := aclSearch env f.ver slices { c with results := [], fid, vrf } s
    let y := { acl with results := acl.results ++ c.results, ecc := acl.ecc || se }
    match fw with
    | none => (y, note, s)
    | some .miss => ({ y with noRoute := true }, note, s)
    | some l =>
      let (y, _, s) := y.add l s
      (y, note, s)

/-- Where a frame goes (R149): its port and the next hop's edits, whether it is trapped, or a drop reason, with limit where
that is the refusal of a fifth pass. -/
structure Dest where
  reason : Nat
  port : Nat
  trap : Bool
  nh : Option Resolved
  ecc : Bool
  limit : Bool
  deriving DecidableEq, Repr

/-- A frame for another pass: a fifth pass is refused (R165). -/
def recircDest (f : Frame) (nh : Option Resolved) : Dest :=
  if 3 ≤ f.pass then ⟨drRule, noPort, false, none, false, true⟩ else ⟨0, 1025, false, nh, false, false⟩

/-- The destination of the combined result: DR_RULE goes before DR_NO_ROUTE (R150), and RECIRC on pass 3 is DR_RULE whatever
else the result carries (R165). -/
def destOf (f : Frame) (c : Combined) (noRoute : Bool) (s : State) : Dest × State :=
  if c.recirc && 3 ≤ f.pass then (recircDest f none, s)
  else if c.drop then (⟨drRule, noPort, false, none, false, false⟩, s)
  else if noRoute then (⟨drNoRoute, noPort, c.trap, none, false, false⟩, s)
  else if c.trap then (⟨0, 1024, true, none, false, false⟩, s)
  else if c.recirc then (recircDest f none, s)
  else match resolveRef f.hash (c.fwd.getD 0) s with
    | (.miss, s) => (⟨drNoRoute, noPort, false, none, false, false⟩, s)
    | (.ecc, s) => (⟨drEcc, noPort, false, none, true, false⟩, s)
    | (.hit r, s) =>
      (if r.port == 1025 then recircDest f (some r) else ⟨0, r.port, r.port == 1024, some r, false, false⟩, s)

/-- A template named by a result or a next hop. -/
def tplLook (t : Option Nat) (s : State) : Look (Option Tpl) × State :=
  match t with
  | none => (.hit none, s)
  | some t =>
    match takeTpl t s with
    | (.hit x, s) => (.hit (some x), s)
    | (.miss, s) => (.miss, s)
    | (.ecc, s) => (.ecc, s)

/-- What edits do to a header window (R155, R156): the drop reason and the growth. Every case of DR_RULE, the edited length
among them, goes before DR_TTL (R150). -/
def editOutcome (e : Edits) (f : Frame) : Nat × Int :=
  let w := if f.bytes.length ≤ 256 then f.bytes.take (f.bytes.length - 4) else headerWindow f.bytes
  match applyEdits { e with decTtl := false } f.parse.layers f.parse.pred f.hash w with
  | .error _ => (drRule, 0)
  | .ok b =>
    let g : Int := (b.length : Int) - w.length
    if 10240 < (f.parse.pred : Int) + g then (drRule, g)
    else match applyEdits e f.parse.layers f.parse.pred f.hash w with
      | .error _ => (drTtl, g)
      | .ok _ => (0, g)

/-- The edit list of a frame, with a drop reason: templates that cannot be used, edits that fail (R155, R156), and the
growth. -/
def editList (f : Frame) (c : Combined) (d : Dest) (s : State) : Nat × Edits × Int × State :=
  let none' : Edits := ⟨none, none, false, none⟩
  let (a, s) := tplLook c.tpl s
  let (n, s) := tplLook (d.nh.bind (·.nh)) s
  match a, n with
  | .ecc, _ => (drEcc, none', 0, s)
  | _, .ecc => (drEcc, none', 0, s)
  | .miss, _ => (drNoRoute, none', 0, s)
  | _, .miss => (drNoRoute, none', 0, s)
  | .hit a, .hit n =>
    let e : Edits := ⟨a, n, (d.nh.map (·.decTtl)).getD false, d.nh.bind (·.dmac)⟩
    if e.isNone then (0, e, 0, s)
    else
      let x := editOutcome e f
      (x.1, e, x.2, s)

/-- The hop-record decision of R225. DEDUCED, log entry 50. -/
def hopDecide (f : Frame) (s : State) : Frame :=
  if f.egress < 1024 && s.on F.hopCfg_HOP_EN f.egress then
    match f.parse.mark 0x0E with
    | none => f
    | some o =>
      let w := headerWindow f.bytes
      if byteAt w o / 16 == 1 && be16 w (o + 3) == s.get F.hopCfg_DOMAIN f.egress then
        if byteAt w (o + 1) == 0 || (s.get F.portCfg_MAX_FRAME f.egress : Int) < f.parse.pred + f.growth + 16 then
          { f with hopOff := some o, hopOvf := true }
        else { f with hopOff := some o, hopOvf := false, growth := f.growth + 16 }
      else f
  else f

/-- The tally keys of a frame that has reached result combination (R219). -/
def tallyKeys (f : Frame) (x : Found) (s : State) : List (Nat × Nat) :=
  let plan := f.parse.shape
  let env : KeyEnv := { fields := f.parse.fields, port := f.port0, fid := x.fid, vrf := x.vrf, egress := f.egress }
  let one (en t : Fld) : List (Nat × Nat) :=
    if s.on F.lookupPlan_VALID plan && s.on en plan then [(s.get t plan, emKey (s.get t plan) false env s)] else []
  one F.lookupPlan_TALLY0_EN F.lookupPlan_TALLY0_TABLE ++ one F.lookupPlan_TALLY1_EN F.lookupPlan_TALLY1_TABLE

/-- The first reason of R150 among those that apply; 0 for none. -/
def firstReason (rs : List Nat) : Nat :=
  ([drEcc, drQuarantine, drParseDepth, drMalformed, drStpBlocked, drRule, drNoRoute, drTtl, drPolicer].find?
    rs.contains).getD 0

/-- A copy of a frame for a port and class, without edits, counters, tallies and captures. -/
def copyFrame (f : Frame) (id kind session p t req : Nat) (s : State) : Frame :=
  { f with
    id
    loc := .copyOf f.id
    kind
    mirror := session
    holds := false
    egress := p
    tc := t
    qnum := classQueue p t f.hash s
    req
    trap := false
    edits := ⟨none, none, false, none⟩
    growth := 0
    counters := []
    tallies := []
    debits := []
    hopOff := none
    soj := 0
    oneStep := false
    twoStep := false
    direct := false }

/-- The growth of a frame's edits without a hop record, which no copy carries (R225). -/
def editGrowth (f : Frame) : Int := if f.hopOff.isSome && !f.hopOvf then f.growth - 16 else f.growth

/-- A mirror copy of a session (R158), none where the sample or the reference gives none. A copy that needs an uncorrectable
word is dropped as DR_ECC (R319). -/
def mirrorCopy (g : Frame) (tc : Option Nat) (m : Nat) (s : State) : Option Frame × State :=
  let lost (s : State) : Option Frame × State :=
    let (id, s) := newId s
    (some { copyFrame g id 1 m noPort g.tc 8194 s with qnum := noQueue, bad := drEcc }, s)
  let (s, bad) := evalObj .mirror m s
  if bad then lost s
  else
    let (take, s) := mirrorSample m s
    if !take then (none, s)
    else match resolveRef g.hash (s.get F.mirror_DEST m) s with
      | (.hit r, s) =>
        let (id, s) := newId s
        let c := copyFrame g id 1 m r.port (tc.getD (s.get F.mirror_TC m)) 8194 s
        let c := { c with trunc := s.get F.mirror_TRUNC m }
        (some (if s.on F.mirror_EGRESS m then { c with edits := g.edits, growth := editGrowth g } else c), s)
      | (.ecc, s) => lost s
      | (.miss, s) => (none, s)

/-- The mirror copies of a frame (R158). g is the frame with its edits, tc the class that a result sets. -/
def mirrorCopies (g : Frame) (tc : Option Nat) : List Nat → State → List Frame × State
  | [], s => ([], s)
  | m :: ms, s =>
    let (c, s) := mirrorCopy g tc m s
    let (cs, s) := mirrorCopies g tc ms s
    (c.toList ++ cs, s)

/-- All the copies of a frame that goes on; t is the class that no policer has changed (R191). -/
def copiesOf (f : Frame) (c : Combined) (t : Nat) (s : State) : List Frame × State :=
  let (kept, more) := mirrorKept c.mirrors s
  let s := if more then s.inc F.actStatus_MIRROR_CAPPED 0 else s
  let (ms, s) := mirrorCopies f c.tc kept s
  if c.copyHost then
    let (id, s) := newId s
    (ms ++ [copyFrame f id 2 0 1024 t 8192 s], s)
  else (ms, s)

/-- What a pen decides: the drop reason (0 for none), the frame and its copies. -/
structure Verdict where
  reason : Nat
  frame : Frame
  copies : List Frame
  deriving DecidableEq, Repr

/-- Lookups and result combination of a frame (R148 to R150, R117, R139). DEDUCED, log entry 49. -/
def combinePass (f : Frame) (s : State) : Verdict × State :=
  let (x, note, s) := passLookups f s
  let c := combine x.results
  let (d, s) := destOf f c x.noRoute s
  let stp := s.on F.portAct_STP_BLOCK f.port0 && !(c.trap || d.trap)
  let s := match note with
    | some n => if stp then s else strayRaise n s
    | none => s
  let (er, e, g, s) := if d.reason == 0 || d.reason == drNoRoute then editList f c d s
    else (0, ⟨none, none, false, none⟩, 0, s)
  let prio := baseTc f s
  let t := c.tc.getD prio
  let r := firstReason [if x.ecc || d.ecc then drEcc else 0, if stp then drStpBlocked else 0, d.reason, er]
  let s := if r != drRule then s
    else if d.limit then s.inc F.actStatus_RECIRC_LIMIT 0
    else if er == drRule then s.inc F.actStatus_EDIT_FAIL 0
    else s
  let f := { f with fid := x.fid, vrf := x.vrf, counters := c.counters, tc := t }
  let (pr, s) := if r == 0 then police f.parse.pred c.policers unpoliced s else (unpoliced, s)
  let r := if pr.ecc then drEcc else if pr.drop then drPolicer else r
  let f := { f with colour := pr.colour, debits := pr.debits }
  if r != 0 then (⟨r, { f with tallies := tallyKeys { f with egress := noPort } x s }, []⟩, s)
  else
    let f := { f with edits := e, growth := g, trap := d.trap }
    let f := hopDecide (bound f d.port (policedClass pr t s) prio s) s
    let (cs, s) := copiesOf f c t s
    (⟨0, { f with tallies := tallyKeys f x s }, cs⟩, s)

/-- The words of a pen that its work on a frame evaluates: the bytes of the header hop, then one word for each field slot of
its field record and one of its copy of the parse configuration. DEDUCED, log entry 33. -/
def penWords (f : Frame) (s : State) : State × Bool :=
  evalWords (instOf 0x04 (f.pen.getD 0))
    (rangeFrom 0 (ceilDiv (min 256 f.bytes.length) 8) ++ rangeFrom (2 ^ 16) f.parse.fields.length ++
      [2 ^ 17 + f.parse.shape]) s

/-- A pen decides on a frame: in-band command frames, quarantine, failed checks and shape 0, direct frames, and every other
frame by its lookups (R286, R351, R103, R106, R302). DEDUCED, log entry 49. -/
def penDecide (f : Frame) (s : State) : Verdict × State :=
  let x := f.parse
  let f := { f with hash := flowHash x.shape x.fields f.port0 s, growth := 0, hopOff := none, trap := false,
                    command := false, edits := ⟨none, none, false, none⟩ }
  let (s, bad) := penWords f s
  let prio := baseTc f s
  if bad then (⟨drEcc, f, []⟩, s)
  else if (commandAt f s).isSome then
    let f := { f with egress := 1026, tc := prio, qnum := 65664, command := true }
    (⟨0, { f with req := requesterOf f prio }, []⟩, s)
  else if quarantined s then (⟨drQuarantine, f, []⟩, s)
  else
    if (x.depth0 || x.failed) && f.malAct == 0 then (⟨if x.depth0 then drParseDepth else drMalformed, f, []⟩, s)
    else if (x.depth0 || x.failed) && f.malAct == 1 then (⟨0, { bound f 1024 prio prio s with trap := true }, []⟩, s)
    else if f.direct then (⟨0, bound f f.egress f.tc prio s, []⟩, s)
    else combinePass f s

/-- Counter pairs and policer corrections of a pass whose last byte has been received (R221, R205). DEDUCED, log
entry 104. -/
def settleCounts (f : Frame) (s : State) : Frame × State :=
  let n := f.bytes.length
  let s := f.counters.foldl (fun s c => counterPair n c s) s
  let s := f.debits.foldl (fun s d => policerCorrect n d s) s
  ({ f with counters := [], debits := [] }, s.setFrame { f with counters := [], debits := [] })

/-- A frame on which a pen has decided, with its time; one whose tail is here settles its counts. -/
def decided (f : Frame) (v : Verdict) (s : State) : Frame × State :=
  let g := { v.frame with kind := f.kind, doneFrc := s.frc }
  if g.ended then settleCounts g s else (g, s.setFrame g)

/-- A frame decided on reaches the race: too late, dropped, or to be released with its copies (R91, R112). -/
def atRace (p seq : Nat) (v : Verdict) (g : Frame) (s : State) : State :=
  if serialLt seq (s.get F.racePort_HEAD_SEQ p) then lateDiscard g s
  else if v.reason != 0 then raceAll p (dropInPen g v.reason s)
  else
    let s := s.setFrame { g with loc := .race }
    raceAll p { s with frames := s.frames ++ v.copies.map fun c => { c with doneFrc := s.frc } }

/-- PEN_COMPLETE: the pen that holds the frame of a port and sequence number completes it. An isolated pen emits nothing
(R91). DEDUCED, log entry 92. -/
def penCompleteDo (p seq : Nat) (s : State) : State :=
  match s.frames.find? fun f => f.loc == .pen && f.inPort == p && f.seq == seq with
  | none => s
  | some f =>
    let n := f.pen.getD 0
    if s.isolated (instOf 0x04 n) then s
    else
      let d := penDecide { f with kind := 0 } s
      let r := decided f d.1 (perfEvent 0x04 0x01 n 1 d.2)
      drove (atRace p seq d.1 r.1 r.2)

/-- RACE_TIMEOUT: HEAD_SEQ of a port has neither completed nor been skipped RACE_TIMEOUT after its dispatch (R112). -/
def raceTimeoutDo (p : Nat) (s : State) : State :=
  let head := s.get F.racePort_HEAD_SEQ p
  match s.frames.find? fun f => f.inPort == p && f.seq == head && f.kind == 0 && (f.loc == .pen || f.loc == .lost) with
  | none => s
  | some f =>
    if s.frc < f.disp + f.raceTo then s
    else
      let n := f.pen.getD 0
      let s := (orphan f (raceRecord f false s)).inc F.racePort_TIMEOUTS p
      let s := s.put F.racePort_HEAD_SEQ p (head + 1)
      let s := raise 0x07 (instOf 0x04 n) none .plain (some (0x13, p * 2 ^ 16 + head, n)) s
      drove (raceAll p s)

/-- A reset of the race store releases every pending sequence number of every port at once (R112). Whether the pen and the
ingress time of a record survived is open. DEDUCED, log entry 51. -/
def raceResetDo (s : State) : State :=
  let held (f : Frame) : Bool :=
    (f.loc == .pen && f.kind == 0) || f.loc == .lost || f.loc == .race || f.loc == .skip
  let s := (s.frames.filter held).foldl (fun s f =>
    let (v, s) := s.draw
    let s := (s.frames.filter fun c => c.loc == .copyOf f.id).foldl (fun s c => dropWhole c drRaceTimeout s) s
    (orphan f (raceRecord f (v % 2 == 1) s)).inc F.racePort_TIMEOUTS f.inPort) s
  drove ((List.range 1026).foldl (fun s p =>
    if occupancy p s == 0 then s else s.put F.racePort_HEAD_SEQ p (s.get F.racePort_NEXT_SEQ p)) s)

/-- The reset of a pen discards its frames, which time out at the race (Table FA-7). -/
def penResetDo (n : Nat) (s : State) : State :=
  (s.frames.filter fun f => f.loc == .pen && f.pen == some n).foldl (fun s f =>
    if f.kind == 0 then s.setFrame { f with loc := .lost }
    else if f.ended then s.dropFrame f.id
    else s.setFrame { f with loc := .tail }) s

end Sys2Proof.Machine
end

