-- ==== Sys2Proof/Machine/Ingress.lean ====
section
/-! DEFINITION. Machine/Ingress.lean: the ingress MAC (R64, R65, R71, R72, R75, R237, R261) and the tail of a frame at the
fold and at egress (R34, R177, R180, R205, R221). -/

namespace Sys2Proof.Machine

open Sys2Proof

/-- The ToD seconds nearest to the local ToD whose bits 33:0 are given (R262). -/
def nearestSec (low : Nat) (s : State) : Nat :=
  let now := s.todNs / 10 ^ 9
  let base := now - now % 2 ^ 34 + low % 2 ^ 34
  let dist (x : Nat) : Nat := if x ≤ now then now - x else x - now
  let up := base + 2 ^ 34
  let best := if dist up < dist base then up else base
  if 2 ^ 34 ≤ base && dist (base - 2 ^ 34) < dist best then base - 2 ^ 34 else best


/-- The MAC of a port can take the first bit of a frame: the port is not DISABLED (R81), and nothing is in reception that
the frame does not interrupt. -/
def macTakes (p : Nat) (w : WireFrame) (s : State) : Bool :=
  s.get F.portStatus_STATE p != 0 && !w.bytes.isEmpty && w.pipe.isSome == isPipe p s &&
    ((receiving p s).isEmpty ||
      (preemptActive p s && !w.preemptable && (receiving p s).all (·.preempted)))

/-- The first bit of a frame reaches the MAC of a port: the ingress time-stamp (R237), or that of the START block on a data
pipe (R262). -/
def ingressTake (p : Nat) (w : WireFrame) (s : State) : State :=
  if !macTakes p w s then s
  else
    let (id, s) := newId s
    let f := { blankFrame id with
      bytes := w.bytes
      inPort := p
      port0 := p
      inFrc := s.frc
      stamp := stampAdd s.tod16 (toSigned 16 (s.get F.portTs_RX_ADJ p) * 1024)
      preempted := w.preemptable && preemptActive p s
      fragments := w.fragments
      assemblyErr := w.assemblyErr
      smdErr := w.smdErr
      blockErr := w.blockErr
      phy := w.phy
      maxFrame := s.get F.portCfg_MAX_FRAME p }
    let f := match w.pipe with
      | none => f
      | some x => { f with
          stamp := (nearestSec x.inSec s * 10 ^ 9 + x.inNs) * 65536 + x.inFrac % 65536
          overFlock := true
          srcDevid := x.srcDevid
          srcPort := x.srcPort
          tc := x.tc % 8 }
    { s with frames := s.frames ++ [f] }

/-- A frame that a far-end loopback sends back as it comes in (R53). -/
def farBack (p : Nat) (w : WireFrame) (s : State) : State :=
  if sendsFar (frontLanes p s) s then
    match w.pipe with
    | none => s.emit (.frame p w.bytes false)
    | some x => s.emit (.pipe p x w.bytes false)
  else s

/-- INGRESS_FRAME_START: the frame is the line's where all lanes of the port hear the line, and in a near-end loopback the
oldest that the port has sent (R53); on a data pipe the octet must deliver blocks to a data slot (R49, R261). DESIGN CHOICE,
log entry 8. DEDUCED, log entry 115. -/
def ingressStartDo (p : Nat) (w : WireFrame) (s : State) : State :=
  if isPipe p s && !channelHears (p / 8) 1 s then s
  else if hearsLoop (frontLanes p s) s then
    match (s.port p).loop with
    | [] => s
    | y :: ys => ingressTake p y (s.setPort p { s.port p with loop := ys })
  else if hearsLine (frontLanes p s) s then ingressTake p w (farBack p w s)
  else s

/-- What the MAC checks of R64, R75 and R261 find, with the MAX_FRAME that the frame began with (R25): the drop reason, 0
for a good frame, and its counter. A frame that an errored block ends is DR_FCS, however short (R261). The checks of R64
win over the fragment errors of R75. DESIGN CHOICE, log entry 113. -/
def macCheck (f : Frame) : Nat × Nat :=
  let n := f.bytes.length
  let good := fcsGood f.bytes
  if f.maxFrame < n then (drOversize, if good then 18 else 19)
  else if f.blockErr then (drFcs, 15)
  else if n < 64 then (drRunt, if good then 16 else 17)
  else if f.smdErr then (drFcs, 33)
  else if f.assemblyErr then (drFcs, 32)
  else if !good then (drFcs, 15)
  else (0, 0)

/-- The bytes of an oversize frame that the MAC passes on (R65), as the body that leaves. -/
def cutBody (f : Frame) : List Byte := f.sendBody.take (((f.maxFrame : Int) - 4 + f.growth).toNat)

/-- The charge of a frame at a bad tail: its received length, which ends at MAX_FRAME where the MAC has cut it (R65, R180). -/
def badLength (f : Frame) (reason : Nat) : Nat :=
  truncLen f (if reason == drOversize then min f.maxFrame f.bytes.length else f.bytes.length)

/-- A template of the frame encapsulates: its inserted length fields hold the predicted length (R157). -/
def encaps (f : Frame) : Bool := (f.edits.act.toList ++ f.edits.nh.toList).any fun t => t.encap != 0

/-- The tail of a frame whose egress has begun (R34, R157, R180, Table FB-4): its charge, its flags, what stomps its FCS. -/
def tailSending (f : Frame) (reason : Nat) (s : State) : State :=
  if reason != 0 then
    let (f, s) := recharge f (badLength f reason) s
    s.setFrame { f with stomp := reason, sendBody := if reason == drOversize then cutBody f else f.sendBody }
  else
    let (r, f, s) := settleTail f (truncLen f f.bytes.length) s
    if r == drQuota then
      (s.inc F.foldStatus_CHAIN_FAIL 0).setFrame { f with stomp := drLenStomp, sentLen := cellRoom f.cells }
    else if r == drEcc then s.setFrame { f with stomp := drEcc }
    else if bit f.parse.status 1 || (encaps f && f.bytes.length != f.parse.pred) then
      s.setFrame { f with stomp := if f.stomp == 0 then drLenStomp else f.stomp }
    else s

/-- The last byte of one frame or copy is here; reason says what is bad about it. DEDUCED, log entry 46. -/
def tailOne (reason n : Nat) (f : Frame) (s : State) : State :=
  let f := { f with ended := true, len0 := n }
  let (f, s) := settleCounts f s
  match f.loc with
  | .tail =>
    let (f, s) := if f.cells.isEmpty then (f, s) else unstore f s
    if f.stomp != 0 then finish f tmStomped f.stomp f.sentLen s else finish f tmDropped f.bad 0 s
  | .mac =>
    if reason != 0 then finish f tmDropped reason 0 s
    else if f.win == .opening then
      let (k, s) := newId s
      s.setFrame { f with win := .complete k }
    else s.setFrame f
  | .queue _ => tailQueued { f with bad := reason } s
  | .tx _ _ => tailSending f reason s
  | _ => s.setFrame { f with bad := if f.bad == 0 then reason else f.bad }

/-- What the PCS and the FEC of a port have met is counted: errored blocks, FEC codewords and symbols where FEC is used,
BIP errors by lane (Tables EP-10 and EP-14). -/
def countPhy (p : Nat) (e : PhyErrs) (s : State) : State :=
  if isPipe p s then s
  else
    let s := countPort p 31 e.symbols s
    let s := if s.get F.portCfg_FEC p == 0 then s
      else countPort p 37 e.fecSymbols (countPort p 36 e.uncorrected (countPort p 35 e.corrected s))
    ((frontLanes p s).zip e.bips).foldl (fun s x => s.addSat F.pcsLane_BIP_ERR x.1 x.2) s

/-- What the MAC counts at the last byte of a frame: its check, its fragments, the layers below, the event (R64, R75, R79). A
frame in more than one fragment counts each of them, the first and the last too, one in a single fragment none. DESIGN
CHOICE, log entry 114. -/
def seenEnd (p : Nat) (f : Frame) (r c : Nat) (s : State) : State :=
  let s := if r == 0 then s else countPort p c 1 s
  let s := if 1 < f.fragments then countPort p 34 f.fragments s else s
  perfEvent 0x01 0x01 p 1 (countPhy p f.phy s)

/-- The frame and its copies meet their tail. DEDUCED, log entry 104. -/
def tailAll (f : Frame) (r : Nat) (s : State) : State :=
  (s.frames.filter fun g => g.wire == f.id && !g.ended).foldl (fun s g => tailOne r f.bytes.length g s) s

/-- The end of a frame whose check has found r: a good control frame is consumed by the MAC (R72). -/
def frameOver (p : Nat) (f : Frame) (r : Nat) (s : State) : State :=
  if r == 0 && isControl f then
    finish { f with ended := true, len0 := f.bytes.length } tmConsumed 0 0 (takeControl p f.bytes s)
  else if r == 0 then tailAll f 0 (countGood p 0 f.bytes s)
  else tailAll f r s

/-- INGRESS_FRAME_END. -/
def ingressEndDo (p : Nat) (s : State) : State :=
  match arriving p s with
  | none => s
  | some f =>
    let m := macCheck f
    let e := evalHop (instOf 0x01 (p / 8)) 0 f.bytes.length (seenEnd p f m.1 m.2 s)
    pump (frameOver p f (if m.1 == 0 && e.2 then drEcc else m.1) e.1)

/-- One frame or copy of an oversize frame whose remaining bytes the MAC discards (R65, R34). DEDUCED, log entry
104. -/
def cutOne (f : Frame) (s : State) : State :=
  match f.loc with
  | .tail => s
  | .queue _ => dropQueued f drOversize s
  | .tx _ _ => s.setFrame { f with stomp := drOversize, sendBody := cutBody f }
  | _ => s.setFrame { f with bad := drOversize }

/-- OVERSIZE_CUT_OFF: byte MAX_FRAME + 1 of the frame that a port is receiving arrives (R65). -/
def oversizeCutDo (p : Nat) (s : State) : State :=
  match arriving p s with
  | none => s
  | some f =>
    if f.maxFrame < f.bytes.length then
      pump ((s.frames.filter fun g => g.wire == f.id).foldl (fun s g => cutOne g s) s)
    else s

/-- A frame that the fold stores as its bytes arrive needs a further cell; the later bytes of a flushed frame are discarded
(R176, R188). -/
def growing (f : Frame) : Bool :=
  !f.ended && f.sentLen == 0 && f.loc != .tail && !f.cells.isEmpty && chainNeed f (truncLen f f.bytes.length) != 0

/-- FOLD_CHAIN_CELL: a frame longer than its cells gets a further pool B cell as its bytes arrive (R176); refused, it is
dropped, or cut short at its last stored byte (Table FB-4), once. -/
def chainCellDo (id : Nat) (s : State) : State :=
  match s.frame id with
  | none => s
  | some f =>
    if !growing f then s
    else match chainCell f s with
      | some (c, s) =>
        let (s, bad) := mapWords [c] s
        match bad, s.frame id, f.loc with
        | true, some f, .queue _ => pump (dropQueued f drEcc s)
        | true, some f, _ => s.setFrame { f with stomp := drEcc }
        | _, _, _ => s
      | none =>
        let s := s.inc F.foldStatus_CHAIN_FAIL 0
        match f.loc with
        | .queue _ => pump (dropQueued f drQuota (quotaDropped f.req s))
        | _ => s.setFrame { f with stomp := drLenStomp, sentLen := cellRoom f.cells }

end Sys2Proof.Machine
end

