-- ==== Sys2Proof/Machine/Egress.lean ====
section
/-! DEFINITION. Machine/Egress.lean: selection at a port, the edits of the egress MAC, and the end of a frame's egress
(R34, R67, R68, R75, R155, R165, R193 to R200, R225, R239, R240). -/

namespace Sys2Proof.Machine

open Sys2Proof

/-! ## The egress MAC's edits -/

/-- The first UDP or TCP mark before an offset, with the offset of its checksum. -/
def l4Before (e : Editing) (o : Nat) : Option (Nat × Nat) :=
  (e.marks.find? fun m => (m.1 == 7 || m.1 == 8) && m.2.1 < o).map fun m =>
    (m.2.1, m.2.1 + (if m.1 == 7 then 6 else 16))

/-- The UDP or TCP checksum before an offset, updated by RFC 1624 for a change of the bytes from an old body; extra is
the change of the pseudo-header (R67, R68). -/
def fixL4 (e : Editing) (old : Editing) (o extra : Nat) : Editing :=
  match l4Before e o with
  | none => e
  | some (h, c) =>
    let hc := be16 e.body c
    if e.body.length < c + 2 || (c == h + 6 && hc == 0) then e
    else
      let z := sumUpdate hc (sumWords (old.body.drop h)) (sumWords (e.body.drop h) + extra)
      e.patch c (natBytes 2 (if c == h + 6 && z == 0 then 0xFFFF else z))

/-- A big-endian 16-bit field raised by n. -/
def Editing.raise16 (e : Editing) (off n : Nat) : Editing := e.patch off (natBytes 2 ((be16 e.body off + n) % 65536))

/-- The hop record of a frame (Table TM-12): SOJOURN and EG_NS are those of its egress. -/
def hopRecord (f : Frame) (s : State) : List Byte :=
  natBytes 16 (s.sys.devid % 1024 * 2 ^ 118 + f.port0 % 2 ^ 11 * 2 ^ 107 + f.egress % 2 ^ 11 * 2 ^ 96 +
    f.qnum % 64 * 2 ^ 90 + f.earmark % 4 * 2 ^ 88 + f.ver % 2 ^ 16 * 2 ^ 72 + f.soj % 2 ^ 32 * 2 ^ 40 +
    stampNs f.selStamp * 2 ^ 8)

/-- The hop-record edit of R225. DEDUCED, log entry 50. -/
def editHop (f : Frame) (s : State) (e : Editing) : Editing :=
  match f.hopOff with
  | none => e
  | some o =>
    if f.hopOvf then fixL4 (e.patch o (natBytes 1 (byteAt e.body o ||| 8))) e o 0
    else
      let n := (e.patch (o + 1) (natBytes 2 ((byteAt e.body (o + 1) - 1) * 256 + (byteAt e.body (o + 2) + 1) % 256)))
      let n := n.put (o + 8) (hopRecord f s) []
      let ip := e.marks.find? fun m => (m.1 == 5 || m.1 == 6) && m.2.1 < o
      let udp := e.marks.find? fun m => m.1 == 7 && m.2.1 < o
      let n := match ip with
        | some (5, i, _) => fixIpv4 (n.raise16 (i + 2) 16) e.body i
        | some (_, i, _) => n.raise16 (i + 4) 16
        | none => n
      let n := match udp with
        | some (_, u, _) => n.raise16 (u + 4) 16
        | none => n
      fixL4 n e o 16

/-- The residence time of a frame in 2^-16 ns (R240). -/
def residence (f : Frame) (s : State) : Int :=
  if f.overFlock then (f.selStamp : Int) - f.stamp
  else
    let d : Int := ((f.selFrc - f.inFrc : Nat) : Int)
    d * 65536 + d * s.time.adj / (2 ^ 8 * 10 ^ 9)

/-- The correctionField after an addition, held at its greatest value where the sum leaves the signed range (R240). -/
def addCorrection (old : Nat) (d : Int) : Nat :=
  let x := toSigned 64 old + d
  if x < -(2 : Int) ^ 63 || (2 : Int) ^ 63 ≤ x then 0x7FFFFFFFFFFFFFFF else ofSigned 64 x

/-- The PTP message of a frame being sent (R239): its offset and messageType. -/
def ptpMessage (e : Editing) : Option (Nat × Nat) :=
  match e.first [0x0C] with
  | none => none
  | some (_, m) =>
    if byteAt e.body (m + 1) % 16 == 2 && m + 44 ≤ e.body.length then some (m, byteAt e.body m % 16) else none

/-- The PTP edits of R240, and whether a one-step request was skipped. -/
def editPtp (f : Frame) (s : State) (e : Editing) : Editing × Bool :=
  if f.kind != 0 || 1024 ≤ f.egress then (e, false)
  else
    let msg := ptpMessage e
    let correct (m : Nat) (d : Int) (n : Editing) : Editing :=
      n.patch (m + 8) (natBytes 8 (addCorrection (bytesNat (slice n.body (m + 8) 8)) d))
    if f.port0 == 1024 then
      if !f.oneStep then (e, false)
      else match msg with
        | some (m, 0) =>
          let n := e.patch (m + 34) (natBytes 6 (stampSec f.selStamp) ++ natBytes 4 (stampNs f.selStamp))
          (fixL4 (correct m (stampFrac f.selStamp) n) e m 0, false)
        | _ => (e, true)
    else if f.port0 < 1024 then
      match msg with
      | none => (e, false)
      | some (m, t) =>
        let mode := s.get F.portTs_TC_MODE f.egress
        if mode == 1 && t ≤ 3 then (fixL4 (correct m (residence f s) e) e m 0, false)
        else if mode == 2 && t == 0 then
          let d := residence f s + ((s.get F.portTs_LINK_DELAY f.port0 * 4096 : Nat) : Int)
          (fixL4 (correct m d e) e m 0, false)
        else (e, false)
    else (e, false)

/-- The body that leaves (FCS left out): hop record, edits of Table AV-9 for the egress length, PTP edits, truncation of a
mirror copy, padding (R156). -/
def egressBody (f : Frame) (s : State) : List Byte × Bool :=
  let e : Editing := ⟨f.bytes.take (f.bytes.length - 4), f.parse.layers, []⟩
  let e := editHop f s e
  let e := if f.edits.isNone then e
    else match editFrame f.edits e.marks f.egLen f.hash e.body with
      | .ok n => n
      | .error _ => e
  let (e, skipped) := editPtp f s e
  let b := if f.trunc != 0 && f.trunc < e.body.length + 4 then e.body.take (f.trunc - 4) else e.body
  (padBody b, skipped)

/-! ## Selection -/

/-- The words of a frame's cells are read: n bytes are left to read. -/
def readCells : List (Nat × Nat) → Nat → State → State × Bool
  | [], _, s => (s, false)
  | (pool, i) :: cs, n, s =>
    let stride := blockStride pool
    let (s, b) := evalHop (instOf 0x0A (i / stride)) (i % stride * (cellSize pool / 8)) (min n (cellSize pool)) s
    let (s, c) := readCells cs (n - cellSize pool) s
    (s, b || c)

/-- The words that the selection of a frame of a class at a port uses: those of its queue and class, of its links and of its
cells; whether one of them is uncorrectable (R318, R319). -/
def takeWords (p t : Nat) (f : Frame) (s : State) : State × Bool :=
  let (s, b1) := selectWords p t f.qnum s
  let (s, b2) := linkWords f.cells s
  let (s, b3) := readCells f.cells (truncLen f f.bytes.length) s
  (s, b1 || b2 || b3)

/-- Frames that can never fit a window are dropped (R78); the fuel bounds the run. -/
def dropOverruns : Nat → Nat → Bool → State → State
  | 0, _, _, s => s
  | n + 1, p, x, s =>
    match overrun p x s with
    | some f => dropOverruns n p x (dropQueued f drGateOverrun s)
    | none => s

/-- A selected frame starts on a front port: its egress stamp and its edits (R237, R240). -/
def startFront (p : Nat) (x : Bool) (f : Frame) (s : State) : State :=
  let s := if x then interrupt p s else s
  let f := { f with fragFrc := some s.frc, selStamp := stampAdd s.tod16 (toSigned 16 (s.get F.portTs_TX_ADJ p) * 1024) }
  let (b, skipped) := egressBody f s
  let s := if skipped then s.inc F.timeStatus_TS_SKIPPED 0 else s
  s.setFrame { f with sendBody := b }

/-- A frame that port 1024 has selected ends without delivery: its cells and charge, its record (R299, R300). -/
def hostEnd (f : Frame) (reason : Nat) (s : State) : State :=
  let (f, s) := unstore f s
  finish f tmDropped reason 0 (correctSent 1024 f 0 s)

/-- A frame dropped as DR_HOST_RING (R299). -/
def hostDrop (f : Frame) (s : State) : State := hostEnd f drHostRing (s.inc F.hostStatus_RING_DROPS 0)

/-- A selected frame of port 1024 waits for descriptors of its ring; a ring that is not enabled drops it (R299, R300). -/
def startHost (f : Frame) (s : State) : State :=
  if s.on F.rxRing_EN (hostRing f s) then
    s.setFrame { f with loc := .hostWait (hostRing f s) s.frc, sendBody := (egressBody f s).1 }
  else hostDrop f s

/-- A selected frame of port 1025 leaves the fold with its edits applied and comes back as a frame of port 1025 (R165). -/
def recirculate (f : Frame) (s : State) : State :=
  let b := (egressBody f s).1
  let (f, s) := unstore f s
  let (k, s) := newId (correctSent 1025 f (b.length + 4) s)
  s.pushFrame { f with
    loc := .mac
    win := .complete k
    wire := f.id
    inPort := 1025
    pass := f.pass + 1
    bytes := withFcs b
    edits := ⟨none, none, false, none⟩
    growth := 0
    colour := 0
    tallies := []
    hopOff := none
    preempted := false
    cut := false
    bad := 0
    egress := noPort
    qnum := noQueue }

/-- A frame switched to port 1027 ends at the export path (R224). -/
def exportEnd (f : Frame) (s : State) : State :=
  let (f, s) := unstore f s
  finish f tmExported 0 0 (correctSent 1027 f f.bytes.length s)

/-- SCHED_SELECT: at a point where a MAC of a port can start a frame. The crook's own row takes the frames of port 1026. -/
def schedSelectDo (p : Nat) (x : Bool) (s : State) : State :=
  if p == 1026 || s.flt.fatal then s
  else
    let s := dropOverruns (s.frames.length + 1) p x s
    match select p x s with
    | none => pump s
    | some (t, f) =>
      let (s, bad) := takeWords p t f s
      if bad then pump (dropQueued f drEcc s)
      else
        let (f, s) := takeSelected p t x f s
        if p < 1024 then pump (startFront p x f s)
        else if p == 1024 then refreshActive 1024 (startHost f s)
        else if p == 1025 then recirculate f s
        else pump (exportEnd f s)

/-! ## The end of egress -/

/-- A frame that has left: its cells and charge, the corrections of R195, the counters, its record. -/
def egressDone (p : Nat) (f : Frame) (stomp : Nat) (out : List Byte) (s : State) : State :=
  let n := out.length
  let s := sendOut p f out false s
  let s := if stomp == 0 then countGood p 64 out s else countPort p 89 1 s
  let s := perfEvent 0x01 0x02 p 1 (countFragments p f s)
  let s := if f.cut && f.egLen < n && (f.gateShut || !gateOpen p f.selClass s) then countPort p 93 1 s else s
  let (f, s) := unstore f s
  let s := correctSent p f n s
  if !f.ended then s.setFrame { f with loc := .tail, stomp, sentLen := n }
  else if stomp == 0 then finish f tmSent 0 n s
  else finish f tmStomped stomp n s

/-- The body that a frame leaves with: one that was cut short ends at its last stored byte (Table FB-4).
DEDUCED, log entry 125. -/
def sentBody (f : Frame) : List Byte :=
  if f.sentLen != 0 then f.sendBody.take (((f.sentLen : Int) + f.growth).toNat) else f.sendBody

/-- EGRESS_FRAME_END: the last bit of the frame on a MAC leaves. It cannot before the frame's tail is here, or the MAC has
cut it off (R65), nor while the transmitter is idle (R38, R54); a preemptable frame ends only while it is being sent, and
resumes after the express traffic (R75, R77, R78). -/
def egressEndDo (p : Nat) (x : Bool) (s : State) : State :=
  match s.frames.find? fun f => f.loc == .tx p x with
  | none => s
  | some f =>
    if (!f.ended && f.stomp != drOversize) || f.fragFrc.isNone || !portDrives p s then s
    else
      let b := sentBody f
      let (s, bad) := evalHop (instOf 0x01 (p / 8)) 0 (b.length + 4) s
      let stomp := if f.stomp == 0 && bad then drEcc else f.stomp
      let s := egressDone p f stomp (if stomp == 0 then withFcs b else withStomp b) s
      pump (refreshActive p (settlePreempt p (portClose p s)))

end Sys2Proof.Machine
end

