-- ==== Sys2Proof/Machine/HostPort.lean ====
section
/-! DEFINITION. Machine/HostPort.lean: the receive and transmit rings of the host port, the record descriptors, and the
notification vectors with their MSI-X table (R296 to R304). -/

namespace Sys2Proof.Machine

open Sys2Proof

/-! ## The link and the registers -/

/-- The PCIe link is up: it has trained (R296, R366). -/
def pcieUp (s : State) : Bool := s.get F.hostStatus_LINK_GEN 0 != 0

/-- Host software's own writes to its memory. DESIGN CHOICE, log entry 7. -/
def hostSoftware (mem : List HostWrite) (s : State) : State := mem.foldl (fun s w => s.setHostBytes w.addr w.bytes) s

/-- Bytes written to host memory by the device; none while the link is down (R366). -/
def dmaWrite (a : Nat) (bs : List Byte) (s : State) : State := if pcieUp s then s.setHostBytes a bs else s

/-- Words written to host memory by the device. -/
def dmaWords (a : Nat) (ws : List Word) (s : State) : State := dmaWrite a (ws.flatMap leBytes) s

/-- The link begins training and trains (R296, R366): the generation and the width are those that both ends support, which
the manual leaves open. DESIGN CHOICE, log entry 17. -/
def trainLink (s : State) : State :=
  let (g, s) := s.draw
  let (w, s) := s.draw
  s.puts 0 [(F.hostStatus_LINK_GEN, 1 + g % 6), (F.hostStatus_LINK_WIDTH, 2 ^ (w % 4))]

/-! ## Rings (Table HP-4, R297) -/

/-- The fields of a ring: BASE, EN, LOG2, HEAD, TAIL of an RX or a TX ring. -/
def ringBase (tx : Bool) : Fld := if tx then F.txRing_BASE else F.rxRing_BASE
def ringEn (tx : Bool) : Fld := if tx then F.txRing_EN else F.rxRing_EN
def ringLog2 (tx : Bool) : Fld := if tx then F.txRing_LOG2 else F.rxRing_LOG2
def ringHead (tx : Bool) : Fld := if tx then F.txRing_HEAD else F.rxRing_HEAD
def ringTail (tx : Bool) : Fld := if tx then F.txRing_TAIL else F.rxRing_TAIL

/-- Descriptors of a ring. -/
def ringSize (tx : Bool) (r : Nat) (s : State) : Nat := 2 ^ s.get (ringLog2 tx) r

/-- Descriptors available to the device. -/
def ringAvail (tx : Bool) (r : Nat) (s : State) : Nat :=
  let n := ringSize tx r s
  (s.get (ringTail tx) r % n + n - s.get (ringHead tx) r % n) % n

/-- The address of the descriptor i places after HEAD. -/
def descAddr (tx : Bool) (r i : Nat) (s : State) : Nat :=
  s.get (ringBase tx) r + (s.get (ringHead tx) r + i) % ringSize tx r s * 32

/-- HEAD moves on by n descriptors. -/
def ringTake (tx : Bool) (r n : Nat) (s : State) : State :=
  s.put (ringHead tx) r ((s.get (ringHead tx) r + n) % ringSize tx r s)

/-- QUIESCED of an RX ring: no frame and no record is in flight on it. -/
def rxQuiesced (r : Nat) (s : State) : Bool := !ringWaits r s && !(s.host.fill.any (·.1 == r))

/-- The ring whose doorbell is at an offset of BAR0 of a function: whether it is a TX ring, and its number (R297). -/
def doorbellRing (fn offset : Nat) : Option (Bool × Nat) :=
  let r := offset % 2 ^ 16 / 16
  if offset % 16 != 0 then none
  else match fn, offset / 2 ^ 16 with
    | 1, 1 => if r < 256 then some (false, r) else none
    | 1, 2 => if r < 256 then some (true, r) else none
    | 2, 1 => if r == 0 then some (false, 256) else none
    | _, _ => none

/-- TAIL written by host software, through a doorbell or a command (R297). -/
def tailWrite (tx : Bool) (r tail : Nat) (s : State) : State := s.put (ringTail tx) r tail

/-- EN of a ring changes from 0 to 1: HEAD and TAIL become 0 (R297). While PERST_N is asserted every ring stays disabled
(R366). -/
def ringEnableDo (tx : Bool) (r : Nat) (s : State) : State :=
  if s.sys.perst || s.on (ringEn tx) r then s else s.puts r [(ringEn tx, 1), (ringHead tx, 0), (ringTail tx, 0)]

/-- Bytes of a buffer of an RX ring. -/
def bufBytes (r : Nat) (s : State) : Nat := s.get F.rxRing_BUF_UNITS r * 128

/-! ## Receive (R299, R300) -/

/-- The frame that waits for descriptors of a ring, with the FRC since which it waits. -/
def waitingFrame (r : Nat) (s : State) : Option (Frame × Nat) :=
  s.frames.findSome? fun f => match f.loc with
    | .hostWait x t => if x == r then some (f, t) else none
    | _ => none

/-- Descriptors that a frame of n bytes needs. -/
def descNeed (r n : Nat) (s : State) : Nat := ceilDiv n (bufBytes r s)

/-- The words of a written receive descriptor (Table HP-6). -/
def rxDesc (f : Frame) (n bytes : Nat) (aborted first last : Bool) : List Word :=
  [BitVec.ofNat 64 (stampSec f.stamp * 2 ^ 16 + f.seq0 % 2 ^ 16),
   BitVec.ofNat 64 (stampNs f.stamp * 2 ^ 32 + bytes % 2 ^ 14 * 2 ^ 18 + b2n aborted * 2 ^ 16 + b2n first * 2 ^ 15 +
     b2n last * 2 ^ 14 + f.tc % 8 * 2 ^ 11 + f.port0 % 2 ^ 11),
   BitVec.ofNat 64 (n % 2 ^ 14 * 2 ^ 50 + f.kind % 4 * 2 ^ 48 + f.mirror % 64 * 2 ^ 42 + b2n f.trap * 2 ^ 41 +
     f.parse.shape % 2 ^ 10 * 2 ^ 31),
   BitVec.ofNat 64 (f.hash % 2 ^ 32 * 2 ^ 32 + 1)]

/-- k descriptors of a ring are written for a frame of n bytes of which the first done bytes have gone into its buffers;
each buffer except the last takes its full size. -/
def rxWrite (r : Nat) (f : Frame) (n done k : Nat) (aborted : Bool) (s : State) : State :=
  let b := bufBytes r s
  let s := (List.range k).foldl (fun s i =>
    let part := ((f.sendBody.take done).drop (i * b)).take b
    let d := descAddr false r i s
    dmaWords d (rxDesc f n part.length aborted (i == 0) (i + 1 == k))
      (dmaWrite (s.hostWord d).toNat part s)) s
  ringTake false r k s

/-- HOST_RX_DELIVER: enough descriptors are available, and the frame is written (R299). The words of a DMA buffer pass
checker HOST 0; an uncorrectable one drops the frame (R319). DEDUCED, log entry 54. -/
def rxDeliverDo (r : Nat) (s : State) : State :=
  match waitingFrame r s with
  | none => s
  | some (f, _) =>
    let n := f.sendBody.length
    let k := descNeed r n s
    if !s.on F.rxRing_EN r then refreshActive 1024 (hostDrop f s)
    else if !pcieUp s || ringAvail false r s < k then s
    else
      let (s, bad) := evalHop (instOf 0x0F 0) 0 n s
      if bad then pump (refreshActive 1024 (hostEnd f drEcc s))
      else
        let s := rxWrite r f n n k false s
        let (f, s) := unstore f s
        let s := finish f tmSent 0 n (correctSent 1024 f n s)
        pump (refreshActive 1024 (notify (vecIdx 1 r) s))

/-- HOST_RING_HOLD_EXPIRY: HOLD has passed without enough descriptors (R299). -/
def rxHoldDo (r : Nat) (s : State) : State :=
  match waitingFrame r s with
  | none => s
  | some (f, t) =>
    if t + s.get F.rxRing_HOLD r * 1000 ≤ s.frc && ringAvail false r s < descNeed r f.sendBody.length s then
      pump (refreshActive 1024 (hostDrop f s))
    else s

/-- The records of a buffer that is being filled come back as an aborted descriptor (R300, R301). -/
def fillAbort (r : Nat) (s : State) : State :=
  match s.host.fill.find? (·.1 == r) with
  | none => s
  | some (_, bs) =>
    let d := descAddr false r 0 s
    let w1 : Nat := bs.length % 2 ^ 14 * 2 ^ 18 + 2 ^ 16 + 2 ^ 15 + 2 ^ 14
    let s := dmaWords d [0, BitVec.ofNat 64 w1, 0, 1] (dmaWrite (s.hostWord d).toNat bs s)
    ringTake false r 1 { s with host := { s.host with fill := dropKey s.host.fill r } }

/-- EN of an RX ring becomes 0 (R300). A waiting frame whose descriptors are available has them reserved, and comes back
ABORTED; the bytes already written are a value the manual leaves open. Any other waiting frame is dropped.
DEDUCED, log entry 26. -/
def rxDisableDo (r : Nat) (s : State) : State :=
  if !s.on F.rxRing_EN r then s
  else
    let s := match waitingFrame r s with
      | none => s
      | some (f, _) =>
        let n := f.sendBody.length
        let k := descNeed r n s
        if pcieUp s && k ≤ ringAvail false r s then
          let (v, s) := s.draw
          hostEnd f drHostRing ((rxWrite r f n (v % (n + 1)) k true s).inc F.hostStatus_ABORTS 0)
        else hostDrop f s
    pump (refreshActive 1024 ((fillAbort r s).put F.rxRing_EN r 0))

/-! ## Records (R301) -/

/-- Bytes of records that a ring's buffer holds now. -/
def fillOf (r : Nat) (s : State) : List Byte := lookD [] s.host.fill r

/-- A record of some bytes is put into a ring's buffer, which a descriptor holds or an available one begins; none where the
ring cannot take it. -/
def fillPut (r : Nat) (bs : List Byte) (s : State) : Option State :=
  if s.on F.rxRing_EN r && pcieUp s && 1 ≤ ringAvail false r s && (fillOf r s).length + bs.length ≤ bufBytes r s then
    some { s with host := { s.host with fill := insKey r (fillOf r s ++ bs) s.host.fill } }
  else none

/-- The vector of a ring's record descriptors (Table HP-2). -/
def fillVector (r : Nat) : Nat := if r == 256 then vecIdx 2 0 else vecIdx 1 r

/-- The descriptor of a ring's filled buffer is written. -/
def fillWrite (r : Nat) (s : State) : State :=
  let bs := fillOf r s
  if bs.isEmpty then s
  else
    let d := descAddr false r 0 s
    let w1 : Nat := bs.length % 2 ^ 14 * 2 ^ 18 + 2 ^ 15 + 2 ^ 14
    let s := dmaWords d [0, BitVec.ofNat 64 w1, 0, 1] (dmaWrite (s.hostWord d).toNat bs s)
    notify (fillVector r) (ringTake false r 1 { s with host := { s.host with fill := dropKey s.host.fill r } })

/-- The records of the export FIFO that fit are packed into the buffer of ring 256. -/
def packExport : List (List Word) → State → State
  | [], s => { s with telem := { s.telem with fifo := [] } }
  | x :: xs, s =>
    match fillPut 256 (x.flatMap leBytes) s with
    | some s => packExport xs (recordLeaves x s)
    | none => { s with telem := { s.telem with fifo := x :: xs } }

/-- RECORD_DESCRIPTOR_WRITE: the buffer of a ring has no room for another record, or no further record waits. Ring 256 takes
the records of the export FIFO; a learn ring the notices that STRAY_NOTICE_DELIVER has put into its buffer. -/
def recordDescDo (r : Nat) (s : State) : State :=
  if r == 256 then
    fillWrite 256 (if s.get F.telemCfg_EXP_DEST 0 == 2 then s else packExport s.telem.fifo s)
  else if (fillOf r s).length + 32 ≤ bufBytes r s && !s.tab.notices.isEmpty && s.get F.learnCfg_DEST 0 == 0 &&
      s.get F.learnCfg_RING 0 == r then s
  else fillWrite r s

/-- The host part of STRAY_NOTICE_DELIVER (R141, R298): a notice goes to a ring of TYPE 01, else it is lost; without a
descriptor it waits. -/
def noticeToRing (n : Notice) (rest : List Notice) (s : State) : State :=
  let r := s.get F.learnCfg_RING 0
  let gone : State := { s with tab := { s.tab with notices := rest } }
  if s.get F.rxRing_TYPE r != 1 then noticeLost n gone
  else match fillPut r (n.words.flatMap leBytes) gone with
    | some t => t
    | none => s

/-! ## Transmit (R302, R303) -/

/-- Word w of the transmit descriptor i places after HEAD (Table HP-7). -/
def txWord (r i w : Nat) (s : State) : Nat := (s.hostWord (descAddr true r i s + 8 * w)).toNat

def txFirst (r i : Nat) (s : State) : Bool := bit (txWord r i 1 s) 49
def txLast (r i : Nat) (s : State) : Bool := bit (txWord r i 1 s) 48

/-- The frame at HEAD of a TX ring: how many descriptors it has, and whether a FIRST follows a descriptor without LAST; none
while its LAST has not been supplied. DEDUCED, log entry 54. -/
def txSpan (r : Nat) (s : State) : Nat → Nat → Option (Nat × Bool)
  | 0, _ => none
  | m + 1, i =>
    if i != 0 && txFirst r i s then some (i, true)
    else if txLast r i s then some (i + 1, false)
    else txSpan r s m (i + 1)

/-- The span of the frame at HEAD. -/
def txNext (r : Nat) (s : State) : Option (Nat × Bool) := txSpan r s (ringAvail true r s) 0

/-- W3 of n descriptors is written, the LAST descriptor last. -/
def txDone (r n status : Nat) (s : State) : State :=
  let s := (List.range n).foldl (fun s i => dmaWords (descAddr true r i s + 24) [BitVec.ofNat 64 (4 + status)] s) s
  ringTake true r n s

/-- The bytes of the frame of n descriptors at HEAD. -/
def txBytes (r n : Nat) (s : State) : List Byte :=
  (List.range n).flatMap fun i => s.hostBytes (txWord r i 0 s) (bits (txWord r i 1 s) 63 50)

/-- The next TX ring to serve after the last one: the first enabled one in ring order that has a frame.
DESIGN CHOICE, log entry 16. -/
def txRingNext (s : State) : Option Nat :=
  ((List.range 256).map fun i => (s.host.lastTx + 1 + i) % 256).find? fun r =>
    s.on F.txRing_EN r && (txNext r s).isSome

/-- The frame of a good fetch, offered to the drove as a frame of port 1024. -/
def txFrame (w2 : Nat) (body : List Byte) (id : Nat) (s : State) : Frame :=
  let direct := bit w2 60
  { blankFrame id with
    win := .complete id
    bytes := withFcs body
    inPort := 1024
    port0 := 1024
    inFrc := s.frc
    stamp := s.tod16
    ended := true
    len0 := body.length + 4
    tc := bits w2 63 61
    direct
    egress := if direct then bits w2 59 49 else noPort
    oneStep := bit w2 48
    twoStep := bit w2 47
    tsTag := bits w2 46 31 }

/-- HOST_TX_FETCH: the next ring's frame is fetched and offered, or refused as BAD (R302). -/
def txFetchDo (s : State) : State :=
  if !pcieUp s || s.flt.fatal || !droveCredit 1024 s then s
  else match txRingNext s with
  | none => s
  | some r =>
    match txNext r s with
    | none => s
    | some (n, broken) =>
      let body := txBytes r n s
      let w2 := txWord r 0 2 s
      let port := bits w2 59 49
      let noPort := bit w2 60 && (1024 ≤ port || s.get F.portCfg_SPEED port == 0)
      let s := { s with host := { s.host with lastTx := r } }
      if broken || body.length < 60 || 10236 < body.length || noPort then
        notify (vecIdx 1 (256 + r)) ((txDone r n 2 s).inc F.hostStatus_TX_BAD 0)
      else
        let (id, s) := newId s
        let f := txFrame w2 body id s
        let s := notify (vecIdx 1 (256 + r)) (txDone r n 0 s)
        let (s, bad) := evalHop (instOf 0x0F 0) 0 f.bytes.length s
        if bad then pump (finish f tmDropped drEcc 0 s) else { s with frames := s.frames ++ [f] }

/-- n descriptors at HEAD of a TX ring come back ABORTED, as those of one frame. -/
def txAbort (r n : Nat) (s : State) : State :=
  if n == 0 then s else (txDone r n 1 s).inc F.hostStatus_ABORTS 0

/-- EN of a TX ring becomes 0: a frame whose fetch has begun, its LAST not yet supplied, comes back ABORTED (R303). -/
def txDisableDo (r : Nat) (s : State) : State :=
  if !s.on F.txRing_EN r then s
  else (whenever (pcieUp s && (txNext r s).isNone) (txAbort r (ringAvail true r s)) s).put F.txRing_EN r 0

/-- An access of the frame that a TX ring fetches fails: the frame at HEAD is discarded, whether its LAST has been supplied or
not, its descriptors come back ABORTED, and EN becomes 0 (R303). -/
def txFetchFails (r : Nat) (s : State) : State :=
  if !s.on F.txRing_EN r then s
  else
    let n := match txNext r s with
      | some (n, _) => n
      | none => ringAvail true r s
    (txAbort r n s).put F.txRing_EN r 0

/-! ## Vectors (R304) -/

/-- The MSI-X table entry of a vector (R296): masked until host software unmasks it. PRESUMED, log entry 100. -/
def msixReset : MsixEntry := ⟨0, 0, true⟩

def State.msix (s : State) (v : Nat) : MsixEntry := lookD msixReset s.host.msix v

def State.setMsix (s : State) (v : Nat) (e : MsixEntry) : State :=
  { s with host := { s.host with msix := putD msixReset s.host.msix v e } }

/-- The message of a vector goes: PENDING becomes 0. -/
def vectorSend (v : Nat) (s : State) : State :=
  let s := (s.put F.vector_PENDING v 0).emit (.msi v (s.msix v).addr (s.msix v).data)
  { s with host := { s.host with oldest := dropKey s.host.oldest v } }

/-- PENDING has reached COUNT. -/
def vectorFull (v : Nat) (s : State) : Bool := s.get F.vector_COUNT v ≤ s.get F.vector_PENDING v

/-- HOLDOFF has passed since the oldest pending event. -/
def vectorDue (v : Nat) (s : State) : Bool :=
  s.get F.vector_PENDING v != 0 && lookD 0 s.host.oldest v + s.get F.vector_HOLDOFF v * 250 ≤ s.frc

/-- A vector's mask bit is clear. -/
def unmasked (v : Nat) (s : State) : Bool := !(s.msix v).masked && pcieUp s

/-- The bit of a vector in the pending-bit array of its function (R296): a message that its mask bit holds back. -/
def pendingBit (v : Nat) (s : State) : Bool := (s.msix v).masked && (vectorFull v s || vectorDue v s)

/-- VECTOR_NOTIFY. -/
def vectorNotifyDo (v : Nat) (s : State) : State := if unmasked v s && vectorFull v s then vectorSend v s else s

/-- VECTOR_HOLDOFF_EXPIRY. -/
def vectorHoldoffDo (v : Nat) (s : State) : State := if unmasked v s && vectorDue v s then vectorSend v s else s

/-- VECTOR_UNMASK: host software writes the entry's address and data and clears its mask bit; the message goes if either
condition holds. -/
def vectorUnmaskDo (v addr data : Nat) (s : State) : State :=
  if !pcieUp s then s
  else
    let s := s.setMsix v ⟨addr, data, false⟩
    if vectorFull v s || vectorDue v s then vectorSend v s else s

/-! ## Errors (R303) -/

/-- What the failure of a host-memory access always does: DMA_ERR_S, FS_HOST_DMA, EV_HOST_DMA. -/
def dmaError (fn ring addr : Nat) (s : State) : State :=
  raise 0x0F (instOf 0x0F 0) none .plain (some (0x32, fn % 4 * 2 ^ 16 + ring % 2 ^ 9, addr % 2 ^ 32))
    (s.put F.hostStatus_DMA_ERR_S 0 1)

/-- EN of every ring becomes 0 (R366, Table FA-7). -/
def ringsOff (s : State) : State :=
  let s := (s.listed .rxRing).foldl (fun s r => rxDisableDo r s) s
  (s.listed .txRing).foldl (fun s r => txDisableDo r s) s

end Sys2Proof.Machine
end

