-- ==== Sys2Proof/Machine/Novha.lean ====
section
/-! DEFINITION. Machine/Novha.lean: Novha packets as bytes: headers, parameters, trailers, replies and their tags (R268 to
R272, R280), and the opcodes of Table CP-11. -/

namespace Sys2Proof

/-! ## Header fields (Tables CP-3, CP-4) -/

/-- Bits hi to lo of the header. -/
def Packet.h (p : Packet) (hi lo : Nat) : Nat := p.hdr.toNat / 2 ^ lo % 2 ^ (hi + 1 - lo)

/-- A field at its place in either version. -/
def Packet.either (p : Packet) (h2 l2 h1 l1 : Nat) : Nat := if p.v2 then p.h h2 l2 else p.h h1 l1

def Packet.opcode (p : Packet) : Nat := p.either 247 232 123 116
def Packet.flags (p : Packet) : Nat := p.either 231 216 115 108
def Packet.tag (p : Packet) : Nat := p.either 215 184 107 92
def Packet.status (p : Packet) : Nat := p.either 183 176 91 84
def Packet.len (p : Packet) : Nat := p.either 175 165 83 73
def Packet.obj (p : Packet) : Nat := p.either 127 80 63 16
def Packet.count (p : Packet) : Nat := p.either 79 48 15 0

/-- DST_DEVID and ORIG_DEVID of a version 2 packet; 0 in version 1. -/
def Packet.dst (p : Packet) : Nat := if p.v2 then p.h 159 150 else 0
def Packet.orig (p : Packet) : Nat := if p.v2 then p.h 149 140 else 0

/-- Flag n of Table CP-5. -/
def Packet.flag (p : Packet) (n : Nat) : Bool := p.flags / 2 ^ n % 2 == 1

def Packet.fence (p : Packet) : Bool := p.flag 0
def Packet.atomic (p : Packet) : Bool := p.flag 1
def Packet.isReply (p : Packet) : Bool := p.flag 2
def Packet.signed (p : Packet) : Bool := p.flag 3
def Packet.staged (p : Packet) : Bool := p.flag 4
def Packet.bcast (p : Packet) : Bool := p.flag 8
def Packet.relayed (p : Packet) : Bool := p.flag 9
def Packet.upstream (p : Packet) : Bool := p.flag 10

/-- A reserved flag or header bit is set (R271 step 6). -/
def Packet.reservedSet (p : Packet) : Bool :=
  p.flags / 2 ^ 5 % 8 != 0 || p.flags / 2 ^ 11 != 0 ||
    if p.v2 then p.h 251 248 != 0 || p.h 164 160 != 0 || p.h 139 128 != 0 || p.h 47 0 != 0 else p.h 72 64 != 0

/-- ASEQ and the reserved bits of a trailer (R280). -/
def Packet.aseq (p : Packet) : Nat := (p.trailer.getD 0).toNat / 2 ^ 192
def Packet.trailerReserved (p : Packet) : Nat := (p.trailer.getD 0).toNat / 2 ^ 128 % 2 ^ 64

/-- The packet with header bits hi to lo set. -/
def Packet.setH (p : Packet) (hi lo x : Nat) : Packet :=
  { p with hdr := BitVec.ofNat 256 (p.hdr.toNat - p.h hi lo * 2 ^ lo + x % 2 ^ (hi + 1 - lo) * 2 ^ lo) }

/-- The packet with a flag set or cleared. -/
def Packet.setFlag (p : Packet) (n : Nat) (b : Bool) : Packet :=
  let lo := (if p.v2 then 216 else 108) + n
  p.setH lo lo (if b then 1 else 0)

end Sys2Proof

namespace Sys2Proof.Machine

open Sys2Proof

/-! ## Bytes -/

/-- The header as bytes. -/
def headerBytes (p : Packet) : List Byte :=
  if p.v2 then natBytes 32 p.hdr.toNat else natBytes 16 (p.hdr.toNat % 2 ^ 128)

/-- The whole packet as bytes in network order (R268). -/
def packetBytes (p : Packet) : List Byte :=
  headerBytes p ++ p.params.flatMap beBytes ++ match p.trailer with
    | some t => natBytes 32 t.toNat
    | none => []

/-- Words from bytes, n of them. -/
def bytesWords (n : Nat) (bs : List Byte) : List Word :=
  (List.range n).map fun i => BitVec.ofNat 64 (bytesNat (slice bs (8 * i) 8))

/-- Steps 1 and 2 of R271 on the bytes of a packet: the packet, or whether its version is the reason for its discard. -/
def parsePacket (bs : List Byte) : Except Bool Packet :=
  let ver := (bs.headD 0).toNat / 16
  if bs.isEmpty then .error false
  else if ver != 1 && ver != 2 then .error true
  else
    let n := if ver == 2 then 32 else 16
    if bs.length < n then .error false
    else
      let p : Packet := { v2 := ver == 2, hdr := BitVec.ofNat 256 (bytesNat (bs.take n)), params := [], trailer := none }
      let len := p.len
      let t := if p.signed then 32 else 0
      if 1024 < len || bs.length < n + 8 * len + t then .error false
      else
        .ok { p with
          params := bytesWords len (bs.drop n),
          trailer := if p.signed then some (BitVec.ofNat 256 (bytesNat (slice bs (n + 8 * len) 32))) else none }

/-! ## Tags (R280, R354) -/

/-- TAG over a packet whose trailer begins with 16 given bytes: the first 16 bytes of the HMAC, RELAYED taken as 0. -/
def tagOf (secret : Nat) (nonce : BitVec 64) (p : Packet) (head : Nat) : Nat :=
  let q := if p.v2 then p.setFlag 9 false else p
  bytesNat ((hmac256 (natBytes 32 secret)
    (natBytes 8 nonce.toNat ++ headerBytes q ++ p.params.flatMap beBytes ++ natBytes 16 head)).take 16)

/-- The trailer of a packet with an ASEQ under a secret and a nonce; the reserved bits are zero. -/
def trailerFor (secret : Nat) (nonce : BitVec 64) (p : Packet) (aseq : Nat) : BitVec 256 :=
  BitVec.ofNat 256 (aseq * 2 ^ 192 + tagOf secret nonce p (aseq * 2 ^ 64))

/-- The TAG of a packet's trailer is the correct one. -/
def tagGood (secret : Nat) (nonce : BitVec 64) (p : Packet) : Bool :=
  match p.trailer with
  | none => false
  | some t => tagOf secret nonce p (t.toNat / 2 ^ 128) == t.toNat % 2 ^ 128

/-! ## Building packets -/

/-- A reply to a request (R272), without its trailer: VER, OPCODE, TAG, OBJ, COUNT, flags and device IDs repeated. -/
def replyTo (p : Packet) (status : Nat) (params : List Word) : Packet :=
  let q := p.setFlag 2 true
  let q := if p.v2 then (q.setH 183 176 status).setH 175 165 params.length
    else (q.setH 91 84 status).setH 83 73 params.length
  { q with params, trailer := none }

/-- A version 2 request. -/
def request2 (op flags tag dst orig obj count : Nat) (params : List Word) : Packet :=
  { v2 := true,
    hdr := BitVec.ofNat 256 (2 * 2 ^ 252 + op % 2 ^ 16 * 2 ^ 232 + flags % 2 ^ 16 * 2 ^ 216 + tag % 2 ^ 32 * 2 ^ 184 +
      params.length % 2 ^ 11 * 2 ^ 165 + dst % 1024 * 2 ^ 150 + orig % 1024 * 2 ^ 140 + obj % 2 ^ 48 * 2 ^ 80 +
      count % 2 ^ 32 * 2 ^ 48),
    params, trailer := none }

/-- A reply answers a request: the fields that R272 repeats agree. -/
def answers (reply req : Packet) : Bool :=
  reply.isReply && reply.v2 == req.v2 && reply.opcode == req.opcode && reply.tag == req.tag && reply.obj == req.obj &&
    reply.count == req.count && reply.dst == req.dst && reply.orig == req.orig

/-- Parameter word i of a packet, 0 past its end. -/
def pw (p : Packet) (i : Nat) : Nat := (p.params.getD i 0).toNat

/-! ## Opcodes (Table CP-11) -/

def opNop : Nat := 0x01
def opGetInfo : Nat := 0x02
def opRead : Nat := 0x10
def opWrite : Nat := 0x11
def opWriteMasked : Nat := 0x12
def opWriteList : Nat := 0x13
def opReadDma : Nat := 0x14
def opCommit : Nat := 0x20
def opDiscard : Nat := 0x21
def opEmInsert : Nat := 0x30
def opEmDelete : Nat := 0x31
def opEmLookup : Nat := 0x32
def opRuleInsert : Nat := 0x33
def opRuleDelete : Nat := 0x34
def opObjRelease : Nat := 0x35
def opHitHarvest : Nat := 0x36
def opLearnAck : Nat := 0x37
def opTallyReadClear : Nat := 0x38
def opVersionCommit : Nat := 0x40
def opVersionDiscard : Nat := 0x41
def opVersionPrepare : Nat := 0x42
def opRecorderRead : Nat := 0x50
def opRecorderClear : Nat := 0x51
def opFaultAck : Nat := 0x60
def opFaultInject : Nat := 0x61
def opUnitReset : Nat := 0x62
def opDeviceReset : Nat := 0x63
def opIdentChallenge : Nat := 0x70
def opCustodySet : Nat := 0x71
def opAdmit : Nat := 0x72

/-- The opcodes of Table CP-11. -/
def opcodes : List Nat :=
  [opNop, opGetInfo, opRead, opWrite, opWriteMasked, opWriteList, opReadDma, opCommit, opDiscard, opEmInsert, opEmDelete,
   opEmLookup, opRuleInsert, opRuleDelete, opObjRelease, opHitHarvest, opLearnAck, opTallyReadClear, opVersionCommit,
   opVersionDiscard, opVersionPrepare, opRecorderRead, opRecorderClear, opFaultAck, opFaultInject, opUnitReset,
   opDeviceReset, opIdentChallenge, opCustodySet, opAdmit]

/-- Class O of Table CP-11. -/
def opOrdered (op : Nat) : Bool :=
  [opCommit, opDiscard, opVersionCommit, opVersionDiscard, opVersionPrepare, opRecorderClear, opUnitReset, opDeviceReset,
   opCustodySet, opAdmit].contains op

/-- The opcodes marked A in Table CP-11. -/
def opAuth (op : Nat) : Bool := [opRecorderClear, opDeviceReset, opCustodySet, opAdmit].contains op

/-- The command acts as a FENCE (R274, R275). -/
def fences (p : Packet) : Bool := p.fence || opOrdered p.opcode

end Sys2Proof.Machine
end

