-- ==== Sys2Proof/Machine/Access.lean ====
section
/-! DEFINITION. Machine/Access.lean: what a read of an object returns and what a write of one does (R5 to R10, R391): the
fields that a unit computes, the special writes, and the object as words of a Novha packet (R292). -/

namespace Sys2Proof.Machine

open Sys2Proof

/-! ## Computed fields -/

/-- Blocks of a pool, and those of them that drain (Table FB-8). -/
def poolBlocks (p : Nat) (s : State) : List Nat := (List.range 256).filter fun b => blockPool b s == p

/-- Home slots in use; a wide entry counts 2 (Table FT-12). -/
def slotsUsed (s : State) : Nat :=
  (emAll s).foldl (fun n l => match l with
    | .home i => n + (if slotWide i s then 2 else 1)
    | .ovf _ => n) 0

/-- Overflow entries whose home bucket has room (Table FT-12). -/
def promotePending (s : State) : Nat :=
  ((emAll s).filter fun l => match l, emAt l s with
    | .ovf i, some e => (freeSlot (s.get F.emOvf_HOME i) e.wide s).isSome
    | _, _ => false).length

/-- Overflow entries in use. -/
def ovfUsed (s : State) : Nat :=
  ((emAll s).filter fun l => match l with
    | .ovf _ => true
    | .home _ => false).length

/-- A record as one number, W0 in its highest bits (Table ER-2). -/
def Rec.bits (r : Rec) : Nat := r.words.foldl (fun x w => x * 2 ^ 64 + w.toNat) 0

/-- The blocks of the flash that a number of them satisfies. -/
def flashCount (p : FBlock → Bool) (s : State) : Nat := (s.flash.blocks.filter fun e => p e.2).length

/-- FREE blocks of the device: those unlisted and those listed so. -/
def flashFree (s : State) : Nat := s.flash.nblocks - s.flash.blocks.length + flashCount (·.state == 0) s

/-- The held command of a context, where it has one. -/
def contextHeld (i : Nat) (s : State) : Option Held := s.crook.held.find? fun h => h.ctx == some i

/-- A context as it starts: at address 0x0000, with an empty stack; its scratch registers as zeros. DESIGN CHOICE,
log entry 77. -/
def contextReset : Context := ⟨0, [], []⟩

def State.context (s : State) (i : Nat) : Context := lookD contextReset s.crook.contexts i

def State.setContext (s : State) (i : Nat) (c : Context) : State :=
  { s with crook := { s.crook with contexts := putD contextReset s.crook.contexts i c } }

/-- The CHANNEL code of Table CE-2. -/
def chanCode : Channel → Nat
  | .pcie .. => 0
  | .inband _ _ _ => 1
  | .sideband _ => 2
  | .flock _ => 3

/-- The device is the shepherd (R349). -/
def shepherd (s : State) : Bool := isShepherd s

/-- A lane belongs to a used port of an Ethernet octet (R86). -/
def laneOfPort (l : Nat) (s : State) : Bool :=
  s.get F.octetCfg_MODE (l / 8) == 1 && (List.range 8).any fun k =>
    let p := l / 8 * 8 + k
    s.get F.portCfg_SPEED p != 0 && p ≤ l && l < p + 2 ^ s.get F.portCfg_NLANES p

/-- The defined sources that a bit of SRC_STATUS holds for, as a map. -/
def srcMap (f : Fld) (s : State) : Nat :=
  ((List.range 21).filter fun n => s.on f n).foldl (fun x n => x + 2 ^ n) 0

/-- µs left in a source's window (Table FA-6). -/
def timerLeft (src : Nat) (s : State) : Nat :=
  match s.flt.timers.find? (·.1 == src) with
  | some (_, t) => ceilDiv (t - s.frc) 1000
  | none => 0

/-- ACTIVE pens of the drove (R91). -/
def activePens (s : State) : List Nat := (List.range 96).filter (penActive · s)

/-- The fields of an object that its unit computes when it is read. DEDUCED, log entry 52. -/
def viewFields (c : Cls) (i : Nat) (s : State) : List (Fld × Nat) :=
  match c with
  | .carve => [(F.carve_DRAINING, b2n (draining i s)), (F.carve_CELLS_USED, (s.blockUsed i).length)]
  | .poolStatus =>
    [(F.poolStatus_BLOCKS, (poolBlocks i s).length),
     (F.poolStatus_DRAIN_BLOCKS, ((poolBlocks i s).filter (draining · s)).length),
     (F.poolStatus_CELLS_FREE, cellsFree i s)]
  | .foldStatus => [(F.foldStatus_UNIFORM, b2n (uniform s))]
  | .queueAdm => [(F.queueAdm_Q_BU, queueBu i s), (F.queueAdm_Q_FRAMES, queueFrames i s)]
  | .queueCfg => [(F.queueCfg_BACKLOG, b2n (!(s.queue i).isEmpty))]
  | .classCfg =>
    [(F.classCfg_BACKLOG, b2n ((busyQueues (i / 8) s).any fun q => servedClass q s == some (i % 8)))]
  | .shaper => [(F.shaper_CREDIT, ofSigned 42 (creditNow i s / 625))]
  | .polState =>
    [(F.polState_BKT_C, ofSigned 42 (bucketC i s / 625)), (F.polState_BKT_E, ofSigned 42 (bucketE i s / 625))]
  | .slot => [(F.slot_AGE_US, slotAge i s)]
  | .versionStatus =>
    [(F.versionStatus_OLDEST_VER, oldestVer s), (F.versionStatus_OCCUPIED, occupied s),
     (F.versionStatus_COMMIT_WAIT, b2n (s.ver.wait.any fun w => !w.prepare))]
  | .srcStatus => [(F.srcStatus_TIMER_LEFT, timerLeft i s)]
  | .faultSummary =>
    [(F.faultSummary_LIVE, srcMap F.srcStatus_LIVE s), (F.faultSummary_STICKY, srcMap F.srcStatus_STICKY s)]
  | .tod =>
    let t := s.tod16
    [(F.tod_SEC, stampSec t), (F.tod_NS, stampNs t), (F.tod_FRAC, stampFrac t), (F.tod_FRC, s.frc)]
  | .timeStatus =>
    [(F.timeStatus_FREQ_ADJ, ofSigned 40 (s.time.adj / 256)), (F.timeStatus_INTEG, ofSigned 40 (s.time.integ / 256))]
  | .flockTime => [(F.flockTime_HOPS, ownHops s)]
  | .flockCfg => [(F.flockCfg_SF_HOLDOVER, sfHoldover s)]
  | .recEntry =>
    match (closeDue s.frc s.log.recs)[i]? with
    | some e => [(F.recEntry_RECORD, e.r.bits)]
    | none => []
  | .recStatus =>
    [(F.recStatus_LOG_ID, s.log.logId), (F.recStatus_FIRST_SEQ, s.log.firstSeq), (F.recStatus_LAST_SEQ, s.log.lastSeq),
     (F.recStatus_FULL, b2n s.log.full), (F.recStatus_FLUSHED, b2n (flushed s)), (F.recStatus_SOURCE, s.log.source)]
  | .emStatus =>
    [(F.emStatus_SLOTS_USED, slotsUsed s), (F.emStatus_OVF_USED, ovfUsed s),
     (F.emStatus_PROMOTE_PENDING, promotePending s)]
  | .bankStatus => [(F.bankStatus_QUEUE_FULL, lookD 0 s.tab.stalls i)]
  | .learnStatus => [(F.learnStatus_FILTER_USED, s.tab.filter.length)]
  | .droveStatus =>
    [(F.droveStatus_ACTIVE, ((activePens s).map (2 ^ ·)).foldl (· + ·) 0), (F.droveStatus_NACTIVE, (activePens s).length)]
  | .microword => [(F.microword_WORD, (Config.microword i).toNat)]
  | .nanoword => [(F.nanoword_WORD, (Config.nanoword i).toNat)]
  | .cmdStatus => [(F.cmdStatus_INFLIGHT, s.crook.held.length)]
  | .crookStatus => [(F.crookStatus_ACTIVE, (s.crook.held.filter (·.ctx.isSome)).length)]
  | .context =>
    match contextHeld i s with
    | none => []
    | some h =>
      [(F.context_BUSY, 1), (F.context_UADDR, (s.context i).uaddr),
       (F.context_OPCODE, h.req.pkt.opcode), (F.context_TAG, h.req.pkt.tag),
       (F.context_CHANNEL, chanCode h.req.chan)]
  | .identStatus =>
    [(F.identStatus_SERIAL, Config.serial.toNat), (F.identStatus_DEVID, s.sys.devid),
     (F.identStatus_ROLE, s.get F.roleCfg_ROLE 0), (F.identStatus_SECRET_SET, b2n s.crook.secret.isSome),
     (F.identStatus_WRITES_LEFT, s.crook.writesLeft)]
  | .identKey => [(F.identKey_KEY, Config.identKey.toNat)]
  | .flashStatus =>
    [(F.flashStatus_STATE, s.flash.state), (F.flashStatus_BLOCKS, if s.flash.state == 0 then 0 else s.flash.nblocks),
     (F.flashStatus_FACTORY_BAD, flashCount (·.factoryBad) s),
     (F.flashStatus_GROWN_BAD, flashCount (fun b => b.state == 3 && !b.factoryBad) s),
     (F.flashStatus_LOG_BLOCKS, flashCount (fun b => b.state == 1 && b.logId == s.log.logId) s),
     (F.flashStatus_FREE_BLOCKS, if s.flash.state == 0 then 0 else flashFree s),
     (F.flashStatus_MAX_ERASES, s.flash.blocks.foldl (fun m e => max m e.2.erases) s.flash.freeErases)]
  | .flashBlock =>
    if s.flash.nblocks ≤ i then []
    else
      let b := s.block i
      [(F.flashBlock_STATE, b.state), (F.flashBlock_FACTORY_BAD, b2n b.factoryBad),
       (F.flashBlock_ERASES, min F.flashBlock_ERASES.max b.erases), (F.flashBlock_BLOCK_SEQ, if b.state == 1 then b.blockSeq else 0)]
  | .rxRing => [(F.rxRing_QUIESCED, b2n (rxQuiesced i s))]
  | .txRing =>
    [(F.txRing_QUIESCED, b2n (!(s.on F.txRing_EN i && ringAvail true i s != 0 && (txNext i s).isNone)))]
  | _ => []

/-- The fields of LANE_STATUS that read as zero on an Ethernet lane (R57). -/
def flockOnly : ObjVal :=
  [F.laneStatus_AM_LOCK, F.laneStatus_SKEW, F.laneStatus_STUFF_OVR, F.laneStatus_STUFF_VIOL, F.laneStatus_HDR_ERR].foldl
    (fun m f => m ||| fldMask f) 0

/-- The live value of an object as it reads. -/
def view (c : Cls) (i : Nat) (s : State) : ObjVal :=
  match c with
  | .pcsLane => if laneOfPort i s then s.obj c i else 0
  | .manifest | .memberDev => if shepherd s then s.obj c i else 0
  | .laneStatus => if laneMode i s == 1 then s.obj c i &&& ~~~flockOnly else s.obj c i
  | _ => (viewFields c i s).foldl (fun v e => fldSet v e.1 e.2) (s.obj c i)

/-! ## Reads (R8) -/

/-- The live value that a read finds, and the state after what the read itself does beside clearing: the taps of a
lane in training are those that training has found by now (R39; DEDUCED, log entry 18), PRBS counts are brought up to
now (R51), the stalls of a bank start at 0 again (R137). -/
def readLive (c : Cls) (i : Nat) (s : State) : ObjVal × State :=
  match c with
  | .laneTxeq => let s := trainTaps i s; (s.obj c i, s)
  | .prbsCount => let s := prbsCountUp i s; (s.obj c i, s)
  | .tsFifo => tsTake s
  | .bankStatus => (view c i s, { s with tab := { s.tab with stalls := dropKey s.tab.stalls i } })
  | _ => (view c i s, s)

/-- A read of an object as one snapshot: its live value, or the staged copy of its ST fields; WO fields read as zero; RCL
fields are cleared (R8). -/
def readObj (staged : Bool) (c : Cls) (i : Nat) (s : State) : ObjVal × State :=
  let (v, s) := readLive c i s
  let v := if staged && !(c == .manifest && !shepherd s) then mergeBits v (s.stagedObj c i) (accMask c [.ST]) else v
  let v := v &&& ~~~accMask c [.WO]
  let hidden := (c == .memberDev && !shepherd s) || (c == .pcsLane && !laneOfPort i s)
  (v, if hidden then s else s.setObj c i (s.obj c i &&& ~~~accMask c [.RCL]))

/-- A read by a command: each stored word passes its checker first; none where one is uncorrectable (R319). -/
def readOne (staged : Bool) (c : Cls) (i : Nat) (s : State) : Option ObjVal × State :=
  let (s, bad) := evalObj c i s
  if bad then (none, s) else let r := readObj staged c i s; (some r.1, r.2)

/-- Words of an object in a packet (R292): its width in whole words, the most significant first. -/
def objWords (c : Cls) : Nat := c.row.width / 64

/-- An object's value as words. DEDUCED, log entry 91. -/
def toWords (c : Cls) (v : ObjVal) : List Word :=
  (List.range (objWords c)).map fun k => v.extractLsb' (64 * (objWords c - 1 - k)) 64

/-- An object's value from words. -/
def ofWords (ws : List Word) : ObjVal := BitVec.ofNat 512 (ws.foldl (fun x w => x * 2 ^ 64 + w.toNat) 0)

/-! ## Writes (R8, R9, R391) -/

/-- A counter of PORT_STATS that Table EP-10 lists. -/
def statListed (i : Nat) : Bool := let n := i % 128; n ≤ 37 || (64 ≤ n && n ≤ 93)

/-- The RW, W1C and ST fields of an object take a value under a mask. -/
def writePlain (c : Cls) (i : Nat) (v m : ObjVal) (s : State) : State :=
  let old := s.obj c i
  let live := mergeBits old v (accMask c [.RW] &&& m) &&& ~~~(v &&& m &&& accMask c [.W1C])
  let s := s.setObj c i live
  s.setStagedObj c i (mergeBits (s.stagedObj c i) v (accMask c [.ST] &&& m))

/-- The value a write under a mask would leave in an object. -/
def written (c : Cls) (i : Nat) (v m : ObjVal) (s : State) : ObjVal := mergeBits (view c i s) v m

/-- A mask covers a field in part or whole. -/
def covers (m : ObjVal) (f : Fld) : Bool := m &&& fldMask f != 0

/-- The mask of a write of a ring without the fields that the write has no effect on: BASE, TYPE, LOG2 and BUF_UNITS while
the ring runs or is not quiesced (R297), and TYPE of ring 256 (Table HP-4). -/
def ringMask (tx : Bool) (r : Nat) (m : ObjVal) (s : State) : ObjVal :=
  let c : Cls := if tx then .txRing else .rxRing
  let fixed : List Fld := if tx then [F.txRing_BASE, F.txRing_LOG2]
    else [F.rxRing_BASE, F.rxRing_LOG2, F.rxRing_BUF_UNITS, F.rxRing_TYPE]
  let idle := !s.on (ringEn tx) r && (tx || rxQuiesced r s)
  let held := (if idle then [] else fixed) ++ (if tx || r != 256 then [] else [F.rxRing_TYPE])
  held.foldl (fun (k : ObjVal) f => k &&& ~~~(fldMask f)) (m &&& ~~~(accMask c [.RO]))

/-- A write of a ring (R297): the values that the write reaches are checked; EN acts under R297, R300 or R303. DEDUCED, log
entry 53. -/
def writeRing (tx : Bool) (r : Nat) (v m : ObjVal) (s : State) : Nat × State :=
  let c : Cls := if tx then .txRing else .rxRing
  let w := written c r v (ringMask tx r m s) s
  let log2 := fldGet w (ringLog2 tx)
  let units := fldGet w F.rxRing_BUF_UNITS
  let ty := fldGet w F.rxRing_TYPE
  if log2 < 4 || 12 < log2 || fldGet w (ringBase tx) % 64 != 0 || (!tx && (units < 2 || 127 < units || ty == 3 || 4095 < fldGet w F.rxRing_HOLD)) then
    (stBadParam, s)
  else
    let plain : List (Fld × Nat) := if tx then [(F.txRing_BASE, fldGet w F.txRing_BASE), (F.txRing_LOG2, log2)]
      else [(F.rxRing_BASE, fldGet w F.rxRing_BASE), (F.rxRing_LOG2, log2), (F.rxRing_BUF_UNITS, units),
        (F.rxRing_TYPE, ty), (F.rxRing_HOLD, fldGet w F.rxRing_HOLD)]
    let s := s.puts r plain
    let s := if covers m (ringTail tx) then tailWrite tx r (fldGet w (ringTail tx)) s else s
    let on := fldGet w (ringEn tx) == 1
    (stOk, if on then ringEnableDo tx r s else if tx then txDisableDo r s else rxDisableDo r s)

/-- What a write of TOD_SET does (R235). NS has a range only with OP 01 (Table TI-4). DEDUCED, log entry 102. -/
def writeTodSet (v : ObjVal) (s : State) : Nat × State :=
  match fldGet v F.todSet_OP with
  | 0 => (stOk, s)
  | 1 =>
    if 999999999 < fldGet v F.todSet_NS then (stBadParam, s)
    else (stOk, setTo (fldGet v F.todSet_SEC) (fldGet v F.todSet_NS) (fldGet v F.todSet_FRAC) s)
  | 2 => (stOk, stepBy false (toSigned 64 (fldGet v F.todSet_STEP)) s)
  | _ => (stBadParam, s)

/-- A ROM check starts; while one runs, nothing happens (R314). -/
def romCheckStartDo (s : State) : State :=
  if s.get F.crookId_CHECK_STATE 0 == 1 then s else s.put F.crookId_CHECK_STATE 0 1

/-- A write of an object under a mask: the status and the state. A status other than OK changes nothing.
DEDUCED, log entry 60. -/
def writeRaw (c : Cls) (i : Nat) (v m : ObjVal) (s : State) : Nat × State :=
  let w := written c i v m s
  match c with
  | .laneTxeq =>
    match txeqAnswer i w s with
    | .fine => (stOk, txeqDo i w s)
    | .bad => (stBadParam, s)
    | .busy => (stBusy, s)
  | .laneRxeq => (stOk, if covers m F.laneRxeq_ADAPT then rxeqAdaptDo i (fldGet w F.laneRxeq_ADAPT) s else s)
  | .prbsCtrl =>
    let w := if covers m F.prbsCtrl_CLEAR then w else fldSet w F.prbsCtrl_CLEAR 0
    if prbsCtrlBad w then (stBadParam, s) else (stOk, prbsCtrlDo i w s)
  | .lanePower =>
    let q := fldGet w F.lanePower_REQ
    if powerReqBad i q s then (stBadParam, s) else (stOk, powerReqDo i q s)
  | .shapeCtrl => (stOk, writePlain c i v (if i == 0 then m &&& ~~~fldMask F.shapeCtrl_VALID else m) s)
  | .portStats => (stOk, if statListed i then writePlain c i v m s else s)
  | .ruleKey | .ruleMask => if s.on F.ruleCtrl_VALID i then (stBusy, s) else (stOk, writePlain c i v m s)
  | .action | .nextHop | .group | .member | .tplCtrl | .tplData =>
    let a := actionWriteCheck c i w s
    if a == 0 then (stOk, stageObj c i (writePlain c i v m s)) else (a, s)
  | .reqQuota =>
    let s := writePlain c i v (m &&& accMask c [.ST]) s
    (stOk, if covers m F.reqQuota_LIMIT then limitWriteDo i (fldGet w F.reqQuota_LIMIT) s else s)
  | .polState =>
    (stOk, if covers m F.polState_BKT_C || covers m F.polState_BKT_E then
      polStateWriteDo i (fldGet w F.polState_BKT_C) (fldGet w F.polState_BKT_E) s else s)
  | .todSet => writeTodSet (v &&& m) s
  | .servoIn =>
    if servoInOk s then (stOk, servoSample (toSigned 64 (fldGet (v &&& m) F.servoIn_OFFSET)) s) else (stBadParam, s)
  | .linkCfg =>
    let s' := writePlain c i v m s
    if fldGet (v &&& m) F.linkCfg_SWITCH == 1 then
      let a := switchStatus i s
      if a == stOk then (stOk, pageSwitchDo i s') else (a, s)
    else (stOk, s')
  | .conn => if connBusy i s then (stBusy, s) else (stOk, writePlain c i v m s)
  | .rxRing => writeRing false i v m s
  | .txRing => writeRing true i v m s
  | .vector => if fldGet w F.vector_COUNT == 0 then (stBadParam, s) else (stOk, writePlain c i v m s)
  | .srcCfg => (stOk, if srcDefined i && srcClass i == 2 then writePlain c i v m s else s)
  | .srcStatus => (stOk, if srcDefined i then writePlain c i v m s else s)
  | .crookId => (stOk, if fldGet (v &&& m) F.crookId_CHECK == 1 then romCheckStartDo s else s)
  | .manifest | .memberDev => (stOk, if shepherd s then writePlain c i v m s else s)
  | .collect => (stBadParam, s)
  | _ => (stOk, writePlain c i v m s)

/-- A write replaces every stored bit of the object: no field keeps a value through it. DEDUCED, log entry 34. -/
def writesWhole (c : Cls) : Bool := c.fields.all fun f => f.acc == .RW || f.acc == .WO || f.acc == .ST

/-- A write by a command. A write that keeps some bits of the stored words reads them first (R319); a write stores fresh
check bits. DEDUCED, log entry 34. -/
def writeOne (c : Cls) (i : Nat) (v m : ObjVal) (s : State) : Nat × State :=
  let (s, bad) := if writesWhole c && m == BitVec.allOnes 512 then (s, false) else evalObj c i s
  if bad then (stAborted, s)
  else
    let r := writeRaw c i v m s
    (r.1, if r.1 == stOk then clearUpset c i r.2 else r.2)

/-- Writes of objects in order; the first refusal ends them. limit stops after so many (a machine check). -/
def writeAll : List (Cls × Nat × ObjVal × ObjVal) → State → Nat × State
  | [], s => (stOk, s)
  | (c, i, v, m) :: ws, s =>
    let r := writeOne c i v m s
    if r.1 == stOk then writeAll ws r.2 else r

/-- Whether the writes would be accepted, one after the other. -/
def writesOk : List (Cls × Nat × ObjVal × ObjVal) → State → Nat × State
  | [], s => (stOk, s)
  | (c, i, v, m) :: ws, s =>
    let r := writeRaw c i v m s
    if r.1 == stOk then writesOk ws r.2 else r

/-- The writes of one part of a command: refused whole, or made in order (R391, Table CP-12); an uncorrectable word leaves
those before it made (R319). -/
def writePart (ws : List (Cls × Nat × ObjVal × ObjVal)) (s : State) : Nat × State :=
  let a := (writesOk ws s).1
  if a == stOk then writeAll ws s else (a, s)

end Sys2Proof.Machine
end

