-- ==== Sys2Proof/Machine/Crook.lean ====
section
/-! DEFINITION. Machine/Crook.lean: how the crook takes packets in, orders its commands and sends its replies: trailers and
replay windows, streams, the PCIe command queues, and the reply of each channel (R271 to R276, R280 to R287). -/

namespace Sys2Proof.Machine

open Sys2Proof

/-! ## What the crook is (R308, R369) -/

/-- The crook takes commands: it has started and RESET_N is deasserted (Table SU-2 step 2). -/
def crookUp (s : State) : Bool := s.sys.crookOn && !s.sys.inReset

/-- The device's BOOT_NONCE (R280). -/
def bootNonce (s : State) : BitVec 64 := Config.bootNonce s.sys.boots

/-- The stream of a channel (R273): PCIe queue q is q; in-band 64; sideband 65; flock 66. -/
def streamOf : Channel → Nat
  | .pcie q .. => q
  | .inband _ _ _ => 64
  | .sideband _ => 65
  | .flock _ => 66

/-- A packet that the shepherd only relays: version 2, for another device, neither UPSTREAM nor BCAST (R354). -/
def elsewhere (p : Packet) (s : State) : Bool :=
  shepherd s && p.v2 && p.dst != s.sys.devid && !p.upstream && !p.bcast

/-- The held command of an acceptance number. -/
def heldOf (n : Nat) (s : State) : Option Held := s.crook.held.find? (·.n == n)

/-- The commands held, changed. -/
def setHeld (hs : List Held) (s : State) : State := { s with crook := { s.crook with held := hs } }

/-- 256 commands are held (R276). -/
def heldFull (s : State) : Bool := 256 ≤ s.crook.held.length

/-! ## Trailers (R280, R281) -/

/-- A window takes the low 63 bits of an ASEQ: none where it refuses. -/
def windowTake (w : Window) (a : Nat) : Option Window :=
  let x := a % 2 ^ 63
  if w.high < x then
    some { high := x, marks := if x - w.high < 64 then (w.marks * 2 ^ (x - w.high) + 1) % 2 ^ 64 else 1 }
  else if w.high ≤ x + 63 && !bit w.marks (w.high - x) then some { w with marks := setBit w.marks (w.high - x) true }
  else none

/-- The check of a packet's trailer: none for a wrong tag or a trailer while no secret is set. A packet that the shepherd
relays keeps the trailer of the device it is for, and is not checked here (R354). -/
def checkTrailer (p : Packet) (s : State) : Option (Auth × State) :=
  if !p.signed || elsewhere p s then some (.none, s)
  else match s.crook.secret with
    | none => none
    | some k =>
      if !tagGood k (bootNonce s) p then none
      else if bit p.aseq 63 then
        match windowTake s.crook.winS p.aseq with
        | some w => some (.accepted, { s with crook := { s.crook with winS := w } })
        | none => some (.replayed, s.inc F.cmdStatus_REPLAY 0)
      else
        match windowTake s.crook.winH p.aseq with
        | some w => some (.accepted, { s with crook := { s.crook with winH := w } })
        | none => some (.replayed, s.inc F.cmdStatus_REPLAY 0)

/-- A packet with a wrong trailer is discarded: AUTH_FAIL and EV_CMD_AUTH_FAIL (R281, Table ER-3). -/
def authFail (ch : Channel) (p : Packet) (s : State) : State :=
  recPlain 0x30 (p.opcode % 2 ^ 16 * 2 ^ 16 + chanCode ch) (p.aseq % 2 ^ 32) (s.inc F.cmdStatus_AUTH_FAIL 0)

/-- A reply with the trailer that its request calls for: the request's ASEQ under the device's own secret and nonce. -/
def sealReply (req reply : Packet) (s : State) : Packet × State :=
  if !req.signed then (reply, s)
  else match s.crook.secret with
    | some k => ({ reply with trailer := some (trailerFor k (bootNonce s) reply req.aseq) }, s)
    | none =>
      let (v, s) := s.draw
      ({ reply with trailer := some (BitVec.ofNat 256 (req.aseq * 2 ^ 192 + v % 2 ^ 128)) }, s)

/-! ## PCIe command queues (R283 to R285) -/

/-- A command queue after reset (Table CP-6). -/
def queueDefault : CmdQueue :=
  { sqBase := 0, cqBase := 0, enable := false, sqLog2 := 4, cqLog2 := 4, sqTail := 0, sqHead := 0, cqHead := 0,
    cqTail := 0, phase := true, done := [] }

def State.cmdq (s : State) (q : Nat) : CmdQueue := lookD queueDefault s.crook.queues q

def State.setCmdq (s : State) (q : Nat) (v : CmdQueue) : State :=
  { s with crook := { s.crook with queues := putD queueDefault s.crook.queues q v } }

/-- QUIESCED of a command queue: no command of it is held, and every completion is written. DEDUCED, log entry 52. -/
def cmdQuiesced (q : Nat) (s : State) : Bool :=
  (s.cmdq q).done.isEmpty && !s.crook.held.any fun h => streamOf h.req.chan == q

/-- The completion ring is full. -/
def cqFull (c : CmdQueue) : Bool := (c.cqTail + 1) % 2 ^ c.cqLog2 == c.cqHead

/-- A completion entry is written at CQ_TAIL, and vector q of PF0 gets an event (Tables CP-7, HP-2); nothing is written
while the link is down. -/
def writeCompletion (q status bytes : Nat) (user : BitVec 32) (s : State) : State :=
  if !pcieUp s then s
  else
    let c := s.cmdq q
    let w0 : Nat := c.sqHead * 2 ^ 48 + status * 2 ^ 40 + b2n c.phase * 2 ^ 39 + user.toNat
    let s := dmaWords (c.cqBase + 16 * c.cqTail) [BitVec.ofNat 64 w0, BitVec.ofNat 64 (bytes * 2 ^ 50)] s
    let t := (c.cqTail + 1) % 2 ^ c.cqLog2
    notify (vecIdx 0 q) (s.setCmdq q { c with cqTail := t, phase := if t == 0 then !c.phase else c.phase })

/-- A command of a queue completes; a full ring holds the completion back. -/
def complete (q status bytes : Nat) (user : BitVec 32) (s : State) : State :=
  let c := s.cmdq q
  if cqFull c || !c.done.isEmpty then s.setCmdq q { c with done := c.done ++ [(status, bytes, user)] }
  else writeCompletion q status bytes user s

/-- The completions held back are written while the ring has room; the fuel bounds their number. -/
def drainDone : Nat → Nat → State → State
  | 0, _, s => s
  | n + 1, q, s =>
    let c := s.cmdq q
    match c.done with
    | [] => s
    | (st, b, u) :: rest =>
      if cqFull c then s else drainDone n q (writeCompletion q st b u (s.setCmdq q { c with done := rest }))

/-! ## Replies (R272, R283, R287, R290, R291) -/

/-- A reply that could not be delivered. -/
def replyLost (s : State) : State := s.inc F.cmdStatus_REPLY_LOST 0

/-- An in-band reply frame, admitted to queue FIRST_Q of class REPLY_TC of the command's port (R287). -/
def sendInband (port : Nat) (mac : BitVec 48) (tags bytes : List Byte) (s : State) : State :=
  let tc := s.get F.cmdCfg_REPLY_TC 0
  let body := padBody (natBytes 6 mac.toNat ++ natBytes 6 (s.get F.cmdCfg_CMD_MAC 0) ++ tags ++ [0x88, 0xB5] ++ bytes)
  let (id, s) := newId s
  let q := portQueue port (s.get F.classCfg_FIRST_Q (port * 8 + tc))
  let f := { sourced id q tc body with inPort := 1026, port0 := 1026 }
  let (r, s) := admitFrame f 8195 f.bytes.length s
  match r with
  | none => refreshActive port s
  | some _ => replyLost s

/-- A packet joins those that the station sends. -/
def sbPush (dst : Nat) (bytes : List Byte) (reply : Bool) (s : State) : State :=
  { s with crook := { s.crook with sb := { s.crook.sb with out := s.crook.sb.out ++ [{ dst, bytes, tries := 0, reply }] } } }

/-- The octet of a device's route, where it is valid (Table FM-4). -/
def routeOf (d : Nat) (s : State) : Option Nat :=
  if s.on F.route_VALID d then some (s.get F.route_OCTET d) else none

/-- A packet leaves on the control pipe towards a device; a reply without a route is lost. DEDUCED, log entry 68. -/
def sendRoute (d : Nat) (p : Packet) (s : State) : State :=
  match routeOf d s with
  | some o => controlOut o (packetBytes p) s
  | none => replyLost s

/-- The reply packets of one command go out by its channel: on a PCIe queue they are written one after another, then one
completion follows with a status of its own; a reply longer than its buffer is not written (R284). -/
def sendReplies (ch : Channel) (req : Packet) (status : Nat) (rs : List Packet) (s : State) : State :=
  match ch with
  | .pcie q _ a room user =>
    let bytes := rs.flatMap packetBytes
    if room < bytes.length then complete q stNoSpace bytes.length user s
    else complete q status bytes.length user (dmaWrite a bytes s)
  | .inband port mac tags => rs.foldl (fun s r => sendInband port mac tags (packetBytes r) s) s
  | .sideband src => rs.foldl (fun s r => sbPush src (packetBytes r) true s) s
  | .flock o =>
    rs.foldl (fun s r =>
      if req.upstream then sendRoute req.orig r s else controlOut o (packetBytes r) s) s

/-- The context of a held command is free, at address 0x0000; its scratch registers stay as they are (R312, Table CE-4). -/
def freedContext (n : Nat) (s : State) : State :=
  match (heldOf n s).bind (·.ctx) with
  | some i => s.setContext i { s.context i with uaddr := 0, stack := [] }
  | none => s

/-- A command that has replied leaves the crook; a status other than OK counts for the next fence of its stream, unless the
command was itself a fence (R274). -/
def leaveHeld (h : Held) (status : Nat) (s : State) : State :=
  let s := freedContext h.n s
  let s := perfEvent 0x12 0x01 (chanCode h.req.chan) 1 (setHeld (s.crook.held.filter (·.n != h.n)) s)
  if status == stOk || fences h.req.pkt then s
  else { s with crook := { s.crook with failed := s.crook.failed ++ [(streamOf h.req.chan, h.n)] } }

/-- A held command replies with whole packets and a status for its completion. -/
def sendHeld (n status : Nat) (rs : List Packet) (s : State) : State :=
  match heldOf n s with
  | none => s
  | some h => sendReplies h.req.chan h.req.pkt status rs (leaveHeld h status s)

/-- The reply packet of a request, sealed. -/
def replyPacket (req : Packet) (status : Nat) (params : List Word) (s : State) : Packet × State :=
  sealReply req (replyTo req status params) s

/-- A held command replies with a status and parameters. -/
def replyHeld (n status : Nat) (params : List Word) (s : State) : State :=
  match heldOf n s with
  | none => s
  | some h =>
    let (r, s) := replyPacket h.req.pkt status params s
    sendHeld n status [r] s

/-- A held command completes without a reply packet: NO_SPACE of R284, and the ABORTED of a queue's unstarted commands and
of host-memory errors. -/
def completeHeld (n status bytes : Nat) (s : State) : State :=
  match heldOf n s with
  | none => s
  | some h =>
    match h.req.chan with
    | .pcie q _ _ _ user => complete q status bytes user (leaveHeld h status s)
    | _ => replyHeld n status [] s

/-! ## Intake (R271 steps 1 to 5, R276) -/

/-- STATE of a MEMBER object: 0 ABSENT, 1 JOINING, 2 MEMBER, 3 QUARANTINED, 4 LOST (Table FM-6). -/
def memberState (d : Nat) (s : State) : Nat := s.get F.memberDev_STATE d

/-- The devices in STATE MEMBER other than the shepherd, rising. -/
def flockMembers (s : State) : List Nat :=
  (s.listed .memberDev).filter fun d => memberState d s == 2 && d != s.sys.devid

/-- The status with which an opcode outside Table CP-11 replies. -/
def unknownStatus (ch : Channel) (a : Auth) : Nat :=
  if a == .replayed || (chanCode ch == 1 && a != .accepted) then stDenied else stBadOpcode

/-- A packet whose header and length are good is taken in: its trailer is checked, and it is held; an unknown opcode replies
at once. DEDUCED, log entry 61. -/
def takeIn (ch : Channel) (p : Packet) (s : State) : State :=
  match checkTrailer p s with
  | none => authFail ch p s
  | some (a, s) =>
    let n := s.crook.nextHeld
    let h : Held := { n, req := ⟨ch, p, a⟩, ctx := none, late := [], frc := s.frc, members := flockMembers s }
    let s := setHeld (s.crook.held ++ [h]) (s.inc F.cmdStatus_ACCEPTED 0)
    let s := { s with crook := { s.crook with nextHeld := n + 1 } }
    if opcodes.contains p.opcode then s else replyHeld n (unknownStatus ch a) [] s

/-- A packet is discarded and counted in MALFORMED (R271); on PCIe a completion may say why. -/
def malformed (ch : Channel) (status : Option Nat) (s : State) : State :=
  let s := s.inc F.cmdStatus_MALFORMED 0
  match ch, status with
  | .pcie q _ _ _ user, some st => complete q st 0 user s
  | _, _ => s

/-- The bytes of a packet reach the crook. DEDUCED, log entry 61. -/
def intake (ch : Channel) (bytes : List Byte) (s : State) : State :=
  match parsePacket bytes with
  | .error true => malformed ch (some stBadOpcode) s
  | .error false => malformed ch (some stBadParam) s
  | .ok p => if p.isReply then malformed ch none s else takeIn ch p s

/-- A packet is one that steps 1 to 4 of R271 discard. -/
def discards (bytes : List Byte) (s : State) : Bool :=
  match parsePacket bytes with
  | .error _ => true
  | .ok p => p.isReply || (checkTrailer p s).isNone

/-! ## Inputs that wait -/

/-- A command queue may fetch its next entry. -/
def mayFetch (q : Nat) (s : State) : Bool :=
  let c := s.cmdq q
  crookUp s && pcieUp s && c.enable && c.sqHead != c.sqTail && !heldFull s

/-- The entry at SQ_HEAD is fetched, and its packet taken in (R283, Table CP-7). -/
def fetchOne (q : Nat) (s : State) : State :=
  let c := s.cmdq q
  let a := c.sqBase + 32 * c.sqHead
  let w1 := (s.hostWord (a + 8)).toNat
  let user := BitVec.ofNat 32 (s.hostWord (a + 24)).toNat
  let ch := Channel.pcie q (s.hostWord a).toNat (s.hostWord (a + 16)).toNat (bits w1 49 36) user
  let s := s.setCmdq q { c with sqHead := (c.sqHead + 1) % 2 ^ c.sqLog2 }
  intake ch (s.hostBytes (s.hostWord a).toNat (bits w1 63 50)) s

/-- A queue fetches as long as it may; the fuel bounds the entries. -/
def fetchAll : Nat → Nat → State → State
  | 0, _, s => s
  | n + 1, q, s => if mayFetch q s then fetchAll n q (fetchOne q s) else s

/-- Entries that wait in a queue's submission ring. -/
def sqWaiting (q : Nat) (s : State) : Nat :=
  let c := s.cmdq q
  (c.sqTail + 2 ^ c.sqLog2 - c.sqHead) % 2 ^ c.sqLog2

/-- The packets that the station has taken go to the crook. -/
def sbDrain : Nat → State → State
  | 0, s => s
  | n + 1, s =>
    match s.crook.sb.input with
    | [] => s
    | (src, bytes) :: rest =>
      if heldFull s || !crookUp s then s
      else sbDrain n (intake (.sideband src) bytes
        { s with crook := { s.crook with sb := { s.crook.sb with input := rest } } })

/-- The packets of control pipes that wait go to the crook. -/
def ctrlDrain : Nat → State → State
  | 0, s => s
  | n + 1, s =>
    match s.crook.ctrl with
    | [] => s
    | (o, bytes) :: rest =>
      if heldFull s || !crookUp s then s
      else ctrlDrain n (intake (.flock o) bytes { s with crook := { s.crook with ctrl := rest } })

/-- The inputs go on after a reply has made room (R276). -/
def crookPump (s : State) : State :=
  let s := (s.crook.queues.map (·.1)).foldl (fun s q => fetchAll (sqWaiting q s) q s) s
  let s := sbDrain s.crook.sb.input.length s
  ctrlDrain s.crook.ctrl.length s

/-- A held command replies, and the inputs go on. -/
def answer (n status : Nat) (params : List Word) (s : State) : State := crookPump (replyHeld n status params s)

/-! ## Queue registers (R283, R285, R391) -/

/-- SQ_TAIL_WRITE: a tail outside the ring has no effect (R391). -/
def sqTailDo (q tail : Nat) (mem : List HostWrite) (s : State) : State :=
  let s := hostSoftware mem s
  let c := s.cmdq q
  if !pcieUp s || 2 ^ c.sqLog2 ≤ tail then s
  else
    let s := s.setCmdq q { c with sqTail := tail }
    fetchAll (sqWaiting q s) q s

/-- CQ_HEAD_WRITE: finished completions held back are written. -/
def cqHeadDo (q head : Nat) (s : State) : State :=
  let c := s.cmdq q
  if !pcieUp s || 2 ^ c.cqLog2 ≤ head then s
  else
    let s := s.setCmdq q { c with cqHead := head }
    drainDone c.done.length q s

/-- The ring registers of a queue as writes of them leave it: no effect while it is enabled or not quiesced, or for a value
outside its range. -/
def queueRegs (q : Nat) (sqBase cqBase : BitVec 64) (sqLog2 cqLog2 : BitVec 4) (s : State) : CmdQueue :=
  let c := s.cmdq q
  if c.enable || !cmdQuiesced q s then c
  else
    let c := if sqBase.toNat % 64 == 0 then { c with sqBase := sqBase.toNat } else c
    let c := if cqBase.toNat % 64 == 0 then { c with cqBase := cqBase.toNat } else c
    let good (l : BitVec 4) : Bool := 4 ≤ l.toNat && l.toNat ≤ 12
    let c := if good sqLog2 then { c with sqLog2 := sqLog2.toNat } else c
    if good cqLog2 then { c with cqLog2 := cqLog2.toNat } else c

/-- CMD_QUEUE_ENABLE: the registers are written, and ENABLE changes from 0 to 1. -/
def queueEnableDo (q : Nat) (sqBase cqBase : BitVec 64) (sqLog2 cqLog2 : BitVec 4) (s : State) : State :=
  if !pcieUp s then s
  else
    let c := queueRegs q sqBase cqBase sqLog2 cqLog2 s
    if c.enable then s
    else s.setCmdq q { c with
      enable := true
      sqHead := 0
      sqTail := 0
      cqHead := 0
      cqTail := 0
      phase := true }

/-- CMD_QUEUE_DISABLE: fetched commands that have not started complete with ABORTED. -/
def queueDisableDo (q : Nat) (s : State) : State :=
  let c := s.cmdq q
  if !c.enable then s
  else
    let s := s.setCmdq q { c with enable := false }
    let gone := s.crook.held.filter fun h => streamOf h.req.chan == q && h.ctx.isNone
    crookPump (gone.foldl (fun s h => completeHeld h.n stAborted 0 s) s)

/-- Every command queue is disabled (R366, Table FA-7). DEDUCED, log entry 84. -/
def queuesOff (s : State) : State := (s.crook.queues.map (·.1)).foldl (fun s q => queueDisableDo q s) s

/-! ## Ordering (R273 to R275, R161, R361) -/

/-- A read or write of an object's words: COUNT objects from OBJ on, as a range of object numbers. -/
def objRange (p : Packet) : Nat × Nat := (p.obj, p.count)

/-- The objects of a WRITE_LIST's entries: each OBJ[63:16] and WORDS[15:0], then its words; none for a list that is cut
short. -/
def listEntries : Nat → List Word → Option (List (Nat × List Word))
  | 0, ws => if ws.isEmpty then some [] else none
  | n + 1, ws =>
    match ws with
    | [] => some []
    | e :: rest =>
      let k := e.toNat % 65536
      if rest.length < k then none
      else (listEntries n (rest.drop k)).map ((e.toNat / 65536, rest.take k) :: ·)

/-- The whole of a unit, as a range of object numbers. -/
def unitRange (u : Nat) : Nat × Nat := (u * 2 ^ 40, 2 ^ 40)

/-- The objects that a command accesses, as ranges of object numbers. DEDUCED, log entry 65. -/
def touches (p : Packet) : List (Nat × Nat) :=
  let op := p.opcode
  if op == opRead || op == opWrite || op == opReadDma then [objRange p]
  else if op == opWriteMasked || op == opObjRelease then [(p.obj, 1)]
  else if op == opWriteList then ((listEntries p.params.length p.params).getD []).map fun e => (e.1, 1)
  else if [opEmInsert, opEmDelete, opEmLookup, opHitHarvest, opLearnAck, opTallyReadClear].contains op then [unitRange 0x05]
  else if op == opRuleInsert || op == opRuleDelete then
    let i := bits (pw p 0) 63 60 * 8192 + bits (pw p 0) 44 32
    [(oid .ruleKey i, 1), (oid .ruleMask i, 1), (oid .ruleCtrl i, 1)]
  else if op == opRecorderRead then [unitRange 0x11]
  else if op == opFaultAck || op == opFaultInject then [unitRange 0x10]
  else []

/-- The table and key of a command that names an EM entry by its key. -/
def emEntryOf (p : Packet) : Option (Nat × Nat) :=
  let t := bits (pw p 0) 63 60
  if p.opcode == opTallyReadClear then some (t, pw p 1 % 2 ^ 32 * 2 ^ 64 + pw p 2)
  else if [opEmInsert, opEmDelete, opEmLookup].contains p.opcode then
    some (t, pw p 1 * 2 ^ 128 + pw p 2 * 2 ^ 64 + pw p 3)
  else none

/-- Two commands access an object in common: two that name EM entries by key, the same entry. DEDUCED, log entry 65. -/
def conflict (a b : Packet) : Bool :=
  match emEntryOf a, emEntryOf b with
  | some x, some y => x == y
  | _, _ => (touches a).any fun x => (touches b).any fun y => x.1 < y.1 + y.2 && y.1 < x.1 + x.2

/-- A command that changes table content (R144, R161): the EM and rule commands, OBJ_RELEASE, and writes of versioned
objects, LPM settings, LPM words and rules. -/
def contentCmd (p : Packet) : Bool :=
  let op := p.opcode
  let content (o : Nat) : Bool := match decodeOid o with
    | some (c, _) => [Cls.action, .nextHop, .group, .member, .tplCtrl, .tplData, .lpmTable, .lpmWord, .ruleKey,
        .ruleMask].contains c
    | none => false
  [opEmInsert, opEmDelete, opRuleInsert, opRuleDelete, opObjRelease, opVersionCommit, opVersionDiscard,
    opVersionPrepare].contains op ||
  ((op == opWrite || op == opWriteMasked) && content p.obj) ||
  (op == opWriteList && ((listEntries p.params.length p.params).getD []).any fun e => content e.1)

/-- A version commit or prepare that this device executes. -/
def commits (p : Packet) (s : State) : Bool :=
  (p.opcode == opVersionCommit || p.opcode == opVersionPrepare) && !elsewhere p s

/-- A command that changes content is held: a version commit or prepare accepted before it has not replied (R161), or the
device is prepared (R361). -/
def contentHeld (h : Held) (s : State) : Bool :=
  contentCmd h.req.pkt && !elsewhere h.req.pkt s &&
    ((s.crook.held.any fun e => e.n < h.n && commits e.req.pkt s) ||
     (s.ver.prepared.isSome &&
       !([opVersionCommit, opVersionDiscard, opVersionPrepare].contains h.req.pkt.opcode)))

/-- An earlier command of the stream lets a command start: it is not ORDERED, and it has started, or it waits as a fence, which
holds no later command (R274), and accesses other objects. -/
def letsPast (e : Held) (p : Packet) : Bool :=
  !opOrdered e.req.pkt.opcode && (e.ctx.isSome || (e.req.pkt.fence && !conflict e.req.pkt p))

/-- The lowest free context (R308). -/
def freeContext (s : State) : Option Nat :=
  (List.range 16).find? fun i => !s.crook.held.any fun h => h.ctx == some i

/-- The channel starts commands: a PCIe queue whose completion ring is full does not (R283). -/
def channelStarts (ch : Channel) (s : State) : Bool :=
  match ch with
  | .pcie q .. => (s.cmdq q).done.isEmpty && !cqFull (s.cmdq q)
  | _ => true

/-- The order of the streams lets a held command start (R273 to R275, R283). -/
def streamLets (h : Held) (s : State) : Bool :=
  let before := s.crook.held.filter fun e => e.n < h.n && streamOf e.req.chan == streamOf h.req.chan
  h.ctx.isNone && channelStarts h.req.chan s &&
    (if fences h.req.pkt then before.isEmpty else before.all fun e => letsPast e h.req.pkt)

/-- A fence finds a command of its stream, since the previous fence, that did not reply OK (R274). -/
def fenceBroken (h : Held) (s : State) : Bool :=
  fences h.req.pkt && s.crook.failed.any fun e => e.1 == streamOf h.req.chan && e.2 < h.n

/-- A fence takes the place of the previous one. -/
def fencePassed (h : Held) (s : State) : State :=
  if fences h.req.pkt then
    { s with crook := { s.crook with
      failed := s.crook.failed.filter fun e => !(e.1 == streamOf h.req.chan && e.2 < h.n) } }
  else s

/-- A held command starts in a context. -/
def startIn (n i : Nat) (s : State) : State :=
  setHeld (s.crook.held.map fun h => if h.n == n then { h with ctx := some i } else h) s

/-- The context of a command that waits in it, after microsteps that no row has followed. DESIGN CHOICE, log entry 77. -/
def waitsAt (i op : Nat) (s : State) : State :=
  s.setContext i { s.context i with uaddr := (Config.microAddr op).toNat }

end Sys2Proof.Machine
end

