-- ==== Sys2Proof/Machine/Sideband.lean ====
section
/-! DEFINITION. Machine/Sideband.lean: the station of the sideband ring and its monitor (R288 to R290). -/

namespace Sys2Proof.Machine

open Sys2Proof

/-- The station, changed. -/
def State.onSb (s : State) (f : SbSt → SbSt) : State := { s with crook := { s.crook with sb := f s.crook.sb } }

/-- The station takes part in the ring; with SB_EN 0 it repeats (R290). -/
def sbOn (s : State) : Bool := s.on F.cmdCfg_SB_EN 0

/-- SB_STATE: 0 claiming, 1 member, 2 monitor, 3 ring fault. -/
def sbState (s : State) : Nat := s.get F.cmdStatus_SB_STATE 0

def sbMonitor (s : State) : Bool := sbState s == 2

/-- The instance of FS_SIDEBAND_RING. -/
def sbInst : Nat := instOf 0x12 0

/-- SB_STATE takes a value; a ring fault ends with it. -/
def setSbState (st : Nat) (s : State) : State :=
  let was := sbState s
  let s := s.put F.cmdStatus_SB_STATE 0 st
  if was == 3 && st != 3 then clearLevel 0x0E sbInst s else s

/-- A token leaves the station, which is not one that it repeats: MON 0. -/
def sendToken (s : State) : State := s.emit (.sbToken s.crook.sb.gen false)

/-- A DATA frame of this station has not been copied: it goes again, or after its eighth sending is given up. -/
def notCopied (o : SbOut) (s : State) : State :=
  let t := o.tries + 1
  if 8 ≤ t then if o.reply then replyLost s else s
  else s.onSb fun b => { b with out := { o with tries := t } :: b.out }

/-- The frame on the ring is over. -/
def landed (copied : Bool) (s : State) : State :=
  match s.crook.sb.flying with
  | none => s
  | some o =>
    let s := s.onSb fun b => { b with flying := none }
    if copied then s else notCopied o s

/-- The station holds the token: it sends a DATA frame, or repeats the token at once. DEDUCED, log entry 79. -/
def useToken (mon : Bool) (s : State) : State :=
  match s.crook.sb.out with
  | [] => s.emit (.sbToken s.crook.sb.gen (mon || sbMonitor s))
  | o :: rest =>
    (s.onSb fun b => { b with out := rest, flying := some o }).emit (.sbData false o.dst s.sys.devid o.bytes false false)

/-- SB_TOKEN_RECEIVE. A frame of this station that the ring has lost counts as not copied. DEDUCED, log entry 79. -/
def sbTokenDo (gen : BitVec 8) (mon : Bool) (s : State) : State :=
  if s.sys.inReset then s
  else if !sbOn s then s.emit (.sbToken gen mon)
  else if sbMonitor s && (mon || gen != s.crook.sb.gen) then s
  else
    let s := if sbMonitor s then s else setSbState 1 s
    useToken mon (landed false (s.onSb fun b => { b with gen := gen, lastToken := s.frc }))

/-- A DATA frame for this device: A is set, and the packet is taken while fewer than 16 wait. -/
def sbTake (d : SbData) (s : State) : State :=
  let room := s.crook.sb.input.length < 16
  let s := s.emit (.sbData (d.mon || sbMonitor s) d.dst d.src d.packet true (d.c || room))
  if room then
    let s := s.onSb fun b => { b with input := b.input ++ [(d.src, d.packet)] }
    sbDrain s.crook.sb.input.length s
  else s

/-- SB_DATA_RECEIVE: the station removes its own frame and sends the token on, takes a frame for it, or repeats. -/
def sbDataDo (d : SbData) (s : State) : State :=
  let again := fun s : State => s.emit (.sbData (d.mon || (sbOn s && sbMonitor s)) d.dst d.src d.packet d.a d.c)
  if s.sys.inReset then s
  else if !sbOn s then again s
  else if d.src == s.sys.devid then
    if s.crook.sb.flying.isSome then sendToken ((landed d.c s).onSb fun b => { b with lastToken := s.frc }) else s
  else if sbMonitor s && d.mon then s
  else if !d.crcOk || d.dst != s.sys.devid then again s
  else sbTake d s

/-- The station becomes monitor and issues a token; TOKENS_NEW counts those after the first. -/
def becomeMonitor (s : State) : State :=
  let s := (setSbState 2 s).put F.cmdStatus_SB_MONITOR 0 s.sys.devid
  let s := if s.crook.sb.issued then s.inc F.cmdStatus_TOKENS_NEW 0 else s
  sendToken (s.onSb fun b => { b with issued := true, lastToken := s.frc, lastIssue := s.frc })

/-- SB_CLAIM_RECEIVE: a claim from a lower device ID ends this station's, its own makes it monitor, one from a higher
device ID is removed. A claim with a CRC error is only repeated. -/
def sbClaimDo (src : Nat) (crcOk : Bool) (s : State) : State :=
  if s.sys.inReset then s
  else if !sbOn s || !crcOk then s.emit (.sbClaim src)
  else if src == s.sys.devid then if sbMonitor s then s else becomeMonitor s
  else if src < s.sys.devid then
    let s := (setSbState 1 s).put F.cmdStatus_SB_MONITOR 0 src
    (s.onSb fun b => { b with lastToken := s.frc }).emit (.sbClaim src)
  else s

/-- SB_TOKEN_TIMEOUT: no token has passed the monitor for 20 ms, nor has it issued one. A token of its own is none that it has
seen, so the 50 ms of SB_CLAIM_START run on. -/
def sbTokenTimeoutDo (s : State) : State :=
  if !s.sys.inReset && sbOn s && sbMonitor s && max s.crook.sb.lastToken s.crook.sb.lastIssue + 20000000 ≤ s.frc then
    sendToken ((s.onSb fun b => { b with gen := b.gen + 1, lastIssue := s.frc }).inc F.cmdStatus_TOKENS_NEW 0)
  else s

/-- The station claims. -/
def claiming (s : State) : Bool := !s.sys.inReset && sbOn s && (sbState s == 0 || sbState s == 3)

/-- SB_CLAIM_START: a station, member or monitor, has seen no token for 50 ms. -/
def sbClaimStartDo (s : State) : State :=
  if !s.sys.inReset && sbOn s && !claiming s && s.crook.sb.lastToken + 50000000 ≤ s.frc then
    ((setSbState 0 s).onSb fun b => { b with claimSince := s.frc, lastClaim := s.frc }).emit (.sbClaim s.sys.devid)
  else s

/-- SB_CLAIM_SEND: a claiming station's claim every 1 ms. -/
def sbClaimSendDo (s : State) : State :=
  if claiming s && s.crook.sb.lastClaim + 1000000 ≤ s.frc then
    (s.onSb fun b => { b with lastClaim := s.frc }).emit (.sbClaim s.sys.devid)
  else s

/-- SB_RING_FAULT: 100 ms of claiming in vain. -/
def sbRingFaultDo (s : State) : State :=
  if !s.sys.inReset && sbOn s && sbState s == 0 && s.crook.sb.claimSince + 100000000 ≤ s.frc then
    raiseLevel 0x0E sbInst (some (0x31, 0, 0)) (setSbState 3 s)
  else s

end Sys2Proof.Machine
end

