-- ==== Sys2Proof/Machine/Flash.lean ====
section
/-! DEFINITION. Machine/Flash.lean: the serial NAND flash under the event log: programs, failures, compaction, patrol,
restoration, and the part of a clear that waits for it (R338, R341 to R347). -/

namespace Sys2Proof.Machine

open Sys2Proof

/-- FLASH STATE takes a value; a change adds one event to PF3 vector 1 (R335). -/
def setFlash (st : Nat) (s : State) : State :=
  if s.flash.state == st then s else notifyRec { s with flash := { s.flash with state := st } }

/-- Good blocks of the device. -/
def goodBlocks (s : State) : Nat := s.flash.nblocks - (s.flash.blocks.filter fun e => e.2.state == 3).length

/-- The geometry is one of R339: 2,048-byte or 4,096-byte main pages, 64 pages per block, 1 to 16 Gbit. -/
def geometryOk (s : State) : Bool :=
  let bytes := s.flash.nblocks * 64 * s.flash.pageBytes
  (s.flash.pageBytes == 2048 || s.flash.pageBytes == 4096) && 2 ^ 27 ≤ bytes && bytes ≤ 2 ^ 31

/-- A cause of EV_FLASH_FAIL holds: 0 the read ID gets no answer, which the row reports; 1 the geometry breaks R339; 2 fewer
than 32 good blocks remain. -/
def failHolds (cause : Nat) (s : State) : Bool :=
  match cause with
  | 0 => true
  | 1 => !geometryOk s
  | 2 => goodBlocks s < 32
  | _ => false

/-- FLASH STATE becomes FAILED (R346): the log is kept on chip only. -/
def flashFailDo (cause : Nat) (s : State) : State :=
  if s.flash.state == 3 || !s.on F.flashCfg_EN 0 || !failHolds cause s then s
  else recPlain 0x41 cause 0 (setFlash 3 (cutProgram s))

/-- The device is identified: FAILED where it does not answer, is not supported or has too few good blocks, else a STATE
(R346). -/
def flashFound (st : Nat) (s : State) : State :=
  if !s.flash.present then flashFailDo 0 s
  else if !geometryOk s then flashFailDo 1 s
  else if goodBlocks s < 32 then flashFailDo 2 s
  else setFlash st s

/-- The device is tried; where it is READY the blocks of earlier logs are erased, unless a clear is still to do so. -/
def flashTry (s : State) : State :=
  let s := flashFound 1 s
  whenever s.log.clears.isEmpty eraseOld s

/-- The flash as a COMMIT of unit FLASH leaves it, from the settings before it: EN 1 tries the device again, EN 0 stops
every access (R346, Table ER-6). -/
def flashCommitted (old s : State) : State :=
  if s.on F.flashCfg_EN 0 then
    if s.flash.state == 0 || s.flash.state == 3 then startProgram (flashTry s) else s
  else if old.on F.flashCfg_EN 0 then setFlash 0 (cutProgram s)
  else s

/-! ## Programs (R341, R343) -/

/-- The entries of the store as a page of records leaves them: a record in flash in its present form waits no longer. -/
def programmed (rs : List Rec) (es : List LogEntry) : List LogEntry :=
  es.map fun e => match rs.find? fun r => r.seq == e.r.seq with
    | some r => { e with prog := some r.rep, flying := none, waiting := e.waiting && e.r.rep != r.rep }
    | none => e

/-- A page of records is in a block. -/
def addPage (b : Nat) (rs : List Rec) (s : State) : State :=
  let x := s.block b
  let s := s.setBlock b { x with pages := x.pages ++ [recordPage rs] }
  { s with log := { s.log with recs := programmed rs s.log.recs } }

/-- A clear that waits for a program goes on once none is in progress (R338 steps 2 to 5). -/
def tryClear (s : State) : State :=
  if s.log.clears.isEmpty || s.log.cleared || s.flash.prog.isSome then s
  else
    let s := clearLog s
    { s with log := { s.log with cleared := true } }

/-- The clear in progress is over: EV_LOG_CLEAR is in flash, or the flash is not in use (R338, R346). -/
def clearOver (s : State) : Bool :=
  s.log.cleared && (s.flash.state != 1 || (s.log.recs.head?.any fun e => e.prog.isSome))

/-- RECORDER_CLEAR is accepted for the held command n: open records close, and the clear waits for a program in progress;
events hold meanwhile. DEDUCED, log entry 41. -/
def clearStart (n : Nat) (s : State) : State :=
  let s := closeAll s
  let s := { s with log := { s.log with clears := s.log.clears ++ [n] } }
  if s.flash.prog.isSome then { s with log := { s.log with holding := true } } else tryClear s

/-- The clear that is over, and the state in which the next one may go on; the blocks of the old log are erased where the
flash is READY. -/
def clearNext (s : State) : Option Nat × State :=
  if clearOver s then
    let s := eraseOld s
    (s.log.clears.head?, { s with log := { s.log with clears := s.log.clears.tail, cleared := false } })
  else (none, s)

/-- FLASH_PROGRAM_DONE: the page is in flash; the next program starts. -/
def programDoneDo (s : State) : State :=
  match s.flash.prog with
  | none => s
  | some (b, rs) =>
    let s := addPage b rs { s with flash := { s.flash with prog := none } }
    if s.log.clears.isEmpty || s.log.cleared then startProgram s else tryClear s

/-- SEQs whose records a block holds. -/
def blockSeqs (b : Nat) (s : State) : List Nat := ((s.block b).pages.flatMap FPage.slots).map fun x => (slotRec x).seq

/-- A block is marked bad: spare byte 0 of page 0 is 0x00, STATE is BAD, and EV_FLASH_BAD_BLOCK is written (R343). What else
it holds stays. -/
def markBad (b : Nat) (erase : Bool) (s : State) : State :=
  recPlain 0x40 b (b2n erase) (s.setBlock b { s.block b with state := 3, refresh := false, spare := 0 })

/-- The records of a block and those of the program cut off wait again. -/
def programAgain (seqs : List Nat) (s : State) : State :=
  let again (e : LogEntry) : LogEntry :=
    if seqs.contains e.r.seq then { e with prog := none, flying := none, waiting := true } else e
  { s with log := { s.log with recs := s.log.recs.map again } }

/-- FLASH_OP_FAIL: a program or an erase of a block reports failure (R343). -/
def opFailDo (b : Nat) (erase : Bool) (s : State) : State :=
  let x := s.block b
  if s.flash.nblocks ≤ b || x.state == 3 || s.flash.state != 1 then s
  else if erase then
    if x.state == 1 then s
    else
      let s := markBad b true s
      if goodBlocks s < 32 then flashFailDo 2 s else s
  else match s.flash.prog with
    | some (c, rs) =>
      if c != b then s
      else
        let s := programAgain (blockSeqs b s ++ rs.map (·.seq)) { s with flash := { s.flash with prog := none } }
        let s := markBad b false s
        if goodBlocks s < 32 then flashFailDo 2 s else startProgram s
    | none => s

/-! ## Compaction and patrol (R344, R345) -/

/-- The block that compaction takes: a marked one first, else the one with the least BLOCK_SEQ once the log has 48. -/
def compactBlock (s : State) : Option Nat :=
  let bs := logBlocks s
  match bs.find? fun b => (s.block b).refresh with
  | some b => some b
  | none => if 48 ≤ bs.length then bs.head? else none

/-- The records of a block that are the latest copies of their SEQ, in SEQ order, from the on-chip store. -/
def latestIn (b : Nat) (s : State) : List Rec :=
  let order (c : Nat) : Nat := openOrder s (s.block c).blockSeq
  let later := ((logBlocks s).filter fun c => order b < order c).flatMap (blockSeqs · s)
  let here := blockSeqs b s
  (s.log.recs.filter fun e => here.contains e.r.seq && !later.contains e.r.seq).map (·.r)

/-- Records put into full pages at the tail, outside a block, and those for which there was no room; the fuel bounds the
pages. -/
def copyPages : Nat → Nat → List Rec → State → List Rec × State
  | 0, _, rs, s => (rs, s)
  | n + 1, b, rs, s =>
    if rs.isEmpty then ([], s)
    else
      let place := match tailBlock s with
        | some t => if t == b then openBlock s else some (t, s)
        | none => openBlock s
      match place with
      | none => (rs, s)
      | some (t, s) => copyPages n b (rs.drop (pageSlots s)) (addPage t (rs.take (pageSlots s)) s)

/-- FLASH_COMPACTION: between programs, a block's latest copies are rewritten at the tail; once every copy is in flash the
block is erased (R344). -/
def compactDo (s : State) : State :=
  if !mayProgram s then s
  else match compactBlock s with
    | none => s
    | some b =>
      let rs := latestIn b s
      let r := copyPages (rs.length + 1) b rs s
      if r.1.isEmpty then r.2.setBlock b (erased r.2 (r.2.block b)) else r.2

/-- A page as a patrol finds it: unreadable, or with a slot whose CRC does not fit. -/
def damaged (f : PatrolFinding) (p : FPage) : FPage :=
  match f.kind with
  | 1 => { p with readable := false }
  | 2 => { p with main := p.main.modify (f.slot * 32 + 31) (~~~·) }
  | _ => p

/-- One finding of a patrol, in a page of the log. -/
def patrolOne (f : PatrolFinding) (s : State) : State :=
  let x := s.block f.block
  if x.state != 1 || x.pages.length ≤ f.page then s
  else
    let x := { x with refresh := true, pages := x.pages.modify f.page (damaged f) }
    let s := (s.setBlock f.block x).inc F.flashStatus_REFRESHES 0
    let s := if f.kind == 1 then s.inc F.flashStatus_UNCORR 0 else if f.kind == 2 then s.inc F.flashStatus_CRC_ERR 0 else s
    recPlain 0x42 f.block (min f.kind 2) s

/-- A patrol is due: the first since the reset, or PATROL_H hours of FRC time after the last (R345). -/
def patrolDue (s : State) : Bool :=
  match s.flash.lastPatrol with
  | none => true
  | some t => t + s.get F.flashCfg_PATROL_H 0 * 3600 * 10 ^ 9 ≤ s.frc

/-- FLASH_PATROL: every page of the log has been read, with these findings. -/
def patrolDo (found : List PatrolFinding) (s : State) : State :=
  if s.flash.state != 1 || !s.sys.logReady || !patrolDue s then s
  else found.foldl (fun s f => patrolOne f s) { s with flash := { s.flash with lastPatrol := some s.frc } }

/-! ## Restoration (R342) -/

/-- Each SEQ follows the one before it. -/
def seqsFollow : List LogEntry → Bool
  | a :: b :: es => b.r.seq == seqNext a.r.seq && seqsFollow (b :: es)
  | _ => true

/-- The on-chip store passes its check: every record CRC is good, and SEQ is consecutive. -/
def storeGood (s : State) : Bool := (s.log.recs.all fun e => e.r.crc == e.r.calcCrc) && seqsFollow s.log.recs

/-- Numbers modulo 2^32 in serial order, seen from one of them. -/
def serialKey (base x : Nat) : Nat := (x + 2 ^ 32 + 2 ^ 31 - base) % 2 ^ 32

/-- The copies and the losses that the pages of the log give, in order: SEQ with its record, or with its mark. -/
def restoreSlots (ps : List FPage) : List (Nat × Option Rec × Nat) :=
  ps.flatMap fun p => p.slots.map fun x =>
    let r := slotRec x
    if !p.readable then (r.seq, none, 1) else if !slotGood x then (r.seq, none, 0) else (r.seq, some r, 2)

/-- The record that stands for a SEQ without a copy. -/
def lostRec (seq mark devid : Nat) : Rec :=
  { seq, code := 4, inj := false, realInj := false, isOpen := false, restored := true, cls := 0, rep := 0, tsSec := 0,
    devid, tsNs := 0, info0 := mark, info1 := 0, crc := 0 }

/-- The entry of a SEQ of the restored log. -/
def restoredEntry (xs : List (Nat × Option Rec × Nat)) (devid seq : Nat) : LogEntry :=
  let mine := xs.filter (·.1 == seq)
  match (mine.filterMap fun x => x.2.1).getLast? with
  | some r =>
    { r := { r with restored := true, isOpen := false }, since := 0, openMs := 0, prog := some r.rep, flying := none,
      waiting := false }
  | none =>
    let mark := match mine.getLast? with
      | some x => x.2.2
      | none => 2
    { r := (lostRec seq mark devid).sealed, since := 0, openMs := 0, prog := none, flying := none, waiting := true }

/-- The SEQs from one to another; the fuel bounds their number. -/
def seqsTo : Nat → Nat → Nat → List Nat
  | 0, _, _ => []
  | n + 1, a, b => a :: if a == b then [] else seqsTo n (seqNext a) b

/-- A log that nothing has kept starts anew (R332, R342). DEDUCED, log entry 82. -/
def newLog (s : State) : State :=
  { s with log := { s.log with recs := [], logId := 1, firstSeq := 0, lastSeq := 0, full := false, source := 2 } }

/-- A block as its contents tell, where id is the greatest LOG_ID: bad, of the log, or else erased. -/
def identified (id : Nat) (free b : FBlock) : FBlock :=
  match headerOf b.head with
  | none => if b.badFromFactory then { b with state := 3, factoryBad := true, refresh := false } else free
  | some (log, q, n) =>
    let known : FBlock := { b with logId := log, blockSeq := q, erases := n, refresh := false, factoryBad := false }
    if known.spare != (0xFF : Byte) then { known with state := 3 }
    else if log == id then { known with state := 1 }
    else free

/-- The log as the flash gives it. -/
def restoreLog (s : State) : State :=
  let heads := s.flash.blocks.filterMap fun e => (headerOf e.2.head).map fun h => (h, e.2)
  let most := heads.foldl (fun m e => max m e.1.2.2) 0
  let id := heads.foldl (fun m e => max m e.1.1) 0
  let mine := heads.filter fun e => e.1.1 == id
  let base := (mine.map (·.1.2.1)).headD 0
  let mine := sortBy (fun e => serialKey base e.1.2.1) mine
  let free := { freeBlock s with erases := most }
  let s := { s with flash := { s.flash with
    blocks := (s.flash.blocks.map fun e => (e.1, identified id free e.2)).filter fun e => e.2 != free
    freeErases := most
    nextBlockSeq := match mine.getLast? with
      | some e => (e.1.2.1 + 1) % 2 ^ 32
      | none => 0 } }
  if heads.isEmpty then newLog s
  else
    let xs := restoreSlots (mine.flatMap (·.2.pages))
    let kept := (xs.filter (·.2.1.isSome)).map (·.1)
    let key := serialKey (kept.headD 0)
    let first := (minBy key kept).getD 0
    let last := (minBy (fun q => 2 ^ 32 - key q) kept).getD 0
    let recs := if kept.isEmpty then [] else
      (seqsTo (key last + 1 - key first) first last).map (restoredEntry xs s.sys.devid)
    { s with log := { s.log with
      recs, logId := id, firstSeq := first, lastSeq := last, full := recs.length == 65536, source := 1 } }

/-- The log is available: the flash is tried where it is in use, and what waits for it goes. -/
def logOpen (s : State) : State :=
  let s := { s with sys := { s.sys with logReady := true }, log := { s.log with kept := true } }
  startProgram (if s.on F.flashCfg_EN 0 && s.flash.state != 3 then flashTry s else s)

end Sys2Proof.Machine
end

