-- ==== Sys2Proof/Machine/Pace.lean ====
section
/-! DEFINITION. Machine/Pace.lean: the pace monitor, the VCORE loop and the AVS interface (R16 to R20, R382), and the
junction temperature (Table FA-4). -/

namespace Sys2Proof.Machine

open Sys2Proof

/-- A request on the AVS interface (Table EL-4). -/
def avsRequest (cmd data : Nat) : BitVec 32 :=
  let w : BitVec 32 := BitVec.ofNat 32 (2 ^ 30 + cmd % 4 * 2 ^ 28 + data % 2 ^ 16 * 2 ^ 8)
  w ||| (crc3 w).zeroExtend 32

/-- A write voltage request for VCORE_REQ is sent; it replaces an unacknowledged one (R382). -/
def avsWrite (s : State) : State :=
  let s := s.emit (.avs (avsRequest 0 (s.get F.paceStatus_VCORE_REQ 0)))
  { s with pace := { s.pace with unacked := some s.frc, lastRead := s.frc } }

/-- VCORE_REQ takes a value; a change sends it (R18). -/
def setRequest (v : Nat) (s : State) : State :=
  if v == s.get F.paceStatus_VCORE_REQ 0 then s else avsWrite (s.put F.paceStatus_VCORE_REQ 0 v)

/-- The instance of FS_PACE_LOW and FS_AVS_NO_ACK. R320 gives the format of an instance and no number for these two.
DESIGN CHOICE, log entry 106. -/
def paceInst : Nat := instOf 0x04 0

/-- PACE_LOW takes its value at the end of a sample period (R20). -/
def showPaceLow (low : Bool) (s : State) : State :=
  let was := s.on F.paceStatus_PACE_LOW 0
  let s := s.put F.paceStatus_PACE_LOW 0 (b2n low)
  if low && !was then
    raiseLevel 0x08 paceInst none ((s.inc F.paceEvents_LOW_EPISODES 0).put F.paceEvents_PACE_LOW_S 0 1)
  else if was && !low then clearLevel 0x08 paceInst s
  else s

/-- AT_LIMIT follows the loop's last request for more, VCORE_REQ and the live VCORE_MAX (Table AR-2); LIMIT_S is set
where it becomes 1. -/
def showLimit (s : State) : State :=
  let at_ := s.pace.asks && s.get F.paceStatus_VCORE_REQ 0 == s.get F.paceControl_VCORE_MAX 0
  let s := if at_ && !s.on F.paceStatus_AT_LIMIT 0 then s.put F.paceEvents_LIMIT_S 0 1 else s
  s.put F.paceStatus_AT_LIMIT 0 (b2n at_)

/-- The algorithm of R18 on a sample. -/
def paceLoop (pen bank : Nat) (s : State) : State :=
  let m := s.get F.paceControl_MARGIN 0
  let req := s.get F.paceStatus_VCORE_REQ 0
  if pen * 1000 < 3200 * (1000 + m) || bank * 1000 < 1250 * (1000 + m) then
    showLimit (setRequest (min (req + 5) (s.get F.paceControl_VCORE_MAX 0))
      { s with pace := { s.pace with highCount := 0, asks := true } })
  else
    let s := showLimit { s with pace := { s.pace with asks := false } }
    if 3200 * (1000 + 2 * m) ≤ pen * 1000 && 1250 * (1000 + 2 * m) ≤ bank * 1000 then
      if s.pace.highCount + 1 == 16 then
        setRequest (max (req - 5) (s.get F.paceControl_VCORE_MIN 0)) { s with pace := { s.pace with highCount := 0 } }
      else { s with pace := { s.pace with highCount := s.pace.highCount + 1 } }
    else { s with pace := { s.pace with highCount := 0 } }

/-- The state a loop that is not in HOLD has: FIXED with AVS_ENABLE 0, else TRACKING (Table AR-3). -/
def loopState (s : State) : Nat := if s.on F.paceControl_AVS_ENABLE 0 then 1 else 3

/-- PACE_SAMPLE: the lowest pen and bank paces of the period; one sample every 10 µs, the first at once. -/
def paceSampleDo (pen bank : Nat) (s : State) : State :=
  if (s.pace.lastSample.any fun t => s.frc < t + 10000) then s
  else
    let s := { s with pace := { s.pace with lastSample := some s.frc } }
    let s := s.puts 0 [(F.paceStatus_PEN_PACE, min pen 65535), (F.paceStatus_BANK_PACE, min bank 65535)]
    let s := if s.get F.paceStatus_STATE 0 == 0 then s.put F.paceStatus_STATE 0 (loopState s) else s
    let s := showPaceLow (pen < 3200 || bank < 1250) s
    if s.get F.paceStatus_STATE 0 == 1 then paceLoop pen bank s else s

/-- What a COMMIT of unit PENS does to the loop: AVS_ENABLE 0 fixes the request at VCORE_FIXED, 1 tracks again
(DEDUCED, log entry 55); a live VCORE_MAX that has moved shows in AT_LIMIT, in HOLD too (Table AR-2). -/
def paceCommitted (s : State) : State :=
  let st := s.get F.paceStatus_STATE 0
  if st == 0 then s
  else if !s.on F.paceControl_AVS_ENABLE 0 then
    let s := if st == 2 then clearLevel 0x09 paceInst s else s
    showLimit (setRequest (s.get F.paceControl_VCORE_FIXED 0)
      ({ s with pace := { s.pace with asks := false } }.put F.paceStatus_STATE 0 3))
  else if st == 3 then s.put F.paceStatus_STATE 0 1
  else showLimit s

/-- AVS_READ_POLL: a read voltage request every 5 µs while a request is not acknowledged. DEDUCED, log entry 55. -/
def avsReadDo (s : State) : State :=
  if s.pace.unacked.isSome && s.pace.lastRead + 5000 ≤ s.frc then
    { s.emit (.avs (avsRequest 1 0)) with pace := { s.pace with lastRead := s.frc } }
  else s

/-- A response acknowledges the request: ACK 00, a good CRC, DATA within 5 mV (R382). -/
def avsAcks (w : BitVec 32) (s : State) : Bool :=
  let x := w.toNat
  let d := bits x 23 8
  let req := s.get F.paceStatus_VCORE_REQ 0
  bits x 31 30 == 0 && (crc3 w).toNat == x % 8 && d ≤ req + 5 && req ≤ d + 5

/-- AVS_RESPONSE. -/
def avsResponseDo (w : BitVec 32) (s : State) : State :=
  if s.pace.unacked.isSome && avsAcks w s then
    let s := s.put F.paceStatus_VCORE_ACK 0 (bits w.toNat 23 8)
    let s := { s with pace := { s.pace with unacked := none } }
    if s.get F.paceStatus_STATE 0 == 2 then clearLevel 0x09 paceInst (s.put F.paceStatus_STATE 0 (loopState s)) else s
  else s

/-- AVS_NO_ACK_TIMEOUT: no acknowledge within 100 µs (R19). -/
def avsTimeoutDo (s : State) : State :=
  match s.pace.unacked with
  | none => s
  | some t =>
    if t + 100000 ≤ s.frc && s.get F.paceStatus_STATE 0 != 2 then
      let s := (s.put F.paceStatus_STATE 0 2).put F.paceEvents_AVS_FAIL_S 0 1
      raiseLevel 0x09 paceInst none { s with pace := { s.pace with lastResend := s.frc } }
    else s

/-- AVS_HOLD_RESEND: the frozen request goes again every 1 ms (R19). -/
def avsResendDo (s : State) : State :=
  if s.get F.paceStatus_STATE 0 == 2 && s.pace.lastResend + 1000000 ≤ s.frc then
    let s := s.emit (.avs (avsRequest 0 (s.get F.paceStatus_VCORE_REQ 0)))
    { s with pace := { s.pace with lastResend := s.frc, lastRead := s.frc } }
  else s

/-! ## Temperature (FS_TEMP_HIGH, FS_TEMP_TRIP) -/

/-- The instance of the junction sensor: the fault unit's own. -/
def tempInst : Nat := instOf 0x10 0

/-- TEMP_HIGH: the sensor reads more than 105 °C. DEDUCED, log entry 93. -/
def tempHighDo (s : State) : State := raiseLevel 0x13 tempInst none s

/-- TEMP_HIGH_CLEAR: the sensor reads 103 °C or less. DEDUCED, log entry 93. -/
def tempClearDo (s : State) : State := clearLevel 0x13 tempInst s

/-- TEMP_TRIP: the sensor has read 115 °C or more for 10 µs. -/
def tempTripDo (s : State) : State := raisePlain 0x14 tempInst s

end Sys2Proof.Machine
end

