-- ==== Sys2Proof/Machine/Checks.lean ====
section
/-! DEFINITION. Machine/Checks.lean: COMMIT and DISCARD_STAGED of a unit: its check, the settings that become live, and
what the unit then does (R10, R25 to R27, R391 and the COMMIT rules of the chapters). -/

namespace Sys2Proof.Machine

open Sys2Proof

/-! ## Checks not given with their chapters

us are the units whose staged values count: the unit itself, or all units of an ATOMIC command (R279). -/

/-- Unit LANES passes R37. -/
def lanesOk (us : List Nat) (s : State) : Bool :=
  let g := s.eff us
  ((eitherListed .octetCfg s).all fun o =>
    let rates := (List.range 8).map fun k => g F.laneCfg_RATE (8 * o + k)
    g F.octetCfg_MODE o != 3 && (g F.octetCfg_MODE o != 2 || rates.all (· == 4) || rates.all (· == 5))) &&
  (eitherListed .laneCfg s).all fun l =>
    let r := g F.laneCfg_RATE l
    r ≤ 5 && !((r == 1 || r == 2) && (g F.laneCfg_PRECODE_TX l == 1 || g F.laneCfg_PRECODE_RX l == 1)) &&
      (g F.laneCfg_LOOPBACK l == 0 || s.get F.lanePower_REQ l == 0) &&
      (g F.octetCfg_MODE (l / 8) != 2 ||
        let rates := (List.range 8).map fun k => g F.laneCfg_RATE (l / 8 * 8 + k)
        rates.all (· == 4) || rates.all (· == 5))

/-- Unit DROVE passes R91. -/
def droveOk (us : List Nat) (s : State) : Bool := s.eff us F.droveCfg_PEN_MASK 0 != 0

/-- A list entry of the muster names a defined class and a range within it (R230); its words. -/
def musterRange (g : Fld → Nat → Nat) (e : Nat) : Option (Cls × Nat × Nat) :=
  match clsOf (g F.musterList_UNIT e) (g F.musterList_CLASS e) with
  | none => none
  | some c =>
    let first := g F.musterList_FIRST e
    let n := g F.musterList_COUNT e
    if 1 ≤ n && rangeOk c first n then some (c, first, n) else none

/-- The muster settings pass R230 and Table TM-15. -/
def musterOk (us : List Nat) (s : State) : Bool :=
  let g := s.eff us
  let i := g F.musterCfg_INTERVAL 0
  let n := g F.musterCfg_NLIST 0
  let b := g F.musterCfg_NBUF 0
  let rs := (List.range n).map (musterRange g)
  let words := rs.foldl (fun x r => x + match r with
    | some (c, _, k) => objWords c * k
    | none => 0) 0
  g F.musterCfg_DEST 0 ≤ 1 && 100 ≤ i && i ≤ 60000000 && 1 ≤ n && n ≤ 64 && 2 ≤ b && b ≤ 15 &&
    (g F.musterCfg_EN 0 == 0 || (rs.all (·.isSome) && words ≤ 2097152))

/-- A TOUT holds valid values (Table TI-8). -/
def toutOk (g : Fld → Nat → Nat) (n : Nat) : Bool :=
  let w := g F.tout_WIDTH n
  let p := g F.tout_PERIOD n
  g F.tout_START_NS n ≤ 999999999 && 8 ≤ w && w ≤ 999999999 && (p == 0 || (w < p && p ≤ 4000000000))

/-- Unit TIME passes its COMMIT check (R248, Tables TI-2, TI-6, TI-8, TI-11). -/
def timeOk (us : List Nat) (s : State) : Bool :=
  let g := s.eff us
  let fl := g F.timeCfg_FREQ_LIMIT 0
  let si := g F.flockTime_SYNC_INTERVAL 0
  !(g F.timeCfg_SRC 0 == 2 && g F.octetCfg_MODE (g F.flockTime_UPSTREAM 0) != 2) &&
    1 ≤ fl && fl ≤ 1000000 && 1 ≤ g F.timeCfg_SAMPLE_TIMEOUT 0 && 10 ≤ si && si ≤ 1000000 &&
    ((eitherListed .portTs s).all fun p => g F.portTs_TC_MODE p != 3) && (List.range 8).all (toutOk g)

/-- Unit HOST passes R298; buffers of the muster lie on 4 KiB (Table HP-9). DEDUCED, log entry 53. -/
def hostOk (us : List Nat) (s : State) : Bool :=
  let g := s.eff us
  ((List.range 64).all fun q =>
    let base := g F.queueMap_BASE_RING q
    let n := g F.queueMap_NRINGS q
    1 ≤ n && base + n ≤ 256 && (rangeFrom base n).all fun r => s.get F.rxRing_TYPE r == 0) &&
  (List.range 15).all fun b => g F.musterBuf_ADDR b % 4096 == 0

/-- Unit FAULT passes R321. -/
def faultOk (us : List Nat) (s : State) : Bool :=
  let g := s.eff us
  ((List.range 64).filter fun n => srcDefined n && srcClass n == 2).all fun n =>
    (srcActions n).contains (g F.srcCfg_ACTION n) && (g F.srcCfg_TRANSIENT_OK n == 0 || srcLevel n) &&
      1 ≤ g F.srcCfg_WINDOW n && g F.srcCfg_WINDOW n ≤ 10000000

/-- Unit PERF passes R226. -/
def perfOk (us : List Nat) (s : State) : Bool :=
  let g := s.eff us
  (eitherListed .perfSel s).all fun c =>
    g F.perfSel_UNIT c == 0 ||
      match perfInsts (g F.perfSel_UNIT c) (g F.perfSel_EVENT c) with
      | some m => g F.perfSel_INST c ≤ m
      | none => false

/-- Unit FLASH holds valid values (Table ER-6). -/
def flashOk (us : List Nat) (s : State) : Bool :=
  let p := s.eff us F.flashCfg_PATROL_H 0
  s.eff us F.flashCfg_CLK 0 != 3 && 1 ≤ p && p ≤ 168

/-- Unit IDENT holds valid values (R350, Table FM-3). -/
def identOk (us : List Nat) (s : State) : Bool :=
  let t := s.eff us F.roleCfg_RELAY_TIMEOUT 0
  s.eff us F.roleCfg_ROLE 0 != 3 && 100 ≤ t && t ≤ 1000000 && s.eff us F.roleCfg_MUSTER_ADDR 0 % 4096 == 0

/-- The COMMIT check of a unit. -/
def unitOk (u : Nat) (us : List Nat) (s : State) : Bool :=
  match u with
  | 0x01 => portsOk us s
  | 0x02 => lanesOk us s
  | 0x03 => droveOk us s
  | 0x04 => pensOk s
  | 0x05 => emOk us s && rulesOk us s && plansOk us s
  | 0x06 => lpmOk us s
  | 0x07 => emOk us s && rulesOk us s && plansOk us s
  | 0x08 => actionsOk us s
  | 0x09 => versionsOk us s
  | 0x0A => foldOk us s
  | 0x0B => schedOk us s
  | 0x0C => exportCfgOk us s && musterOk us s
  | 0x0D => timeOk us s
  | 0x0E => flockOk us s
  | 0x0F => hostOk us s
  | 0x10 => faultOk us s
  | 0x11 => s.eff us F.recCfg_COLLAPSE_MS 0 ≤ 1000
  | 0x13 => perfOk us s
  | 0x14 => flashOk us s
  | 0x15 => identOk us s
  | _ => true

/-! ## Effects -/

/-- The selections of PERF that change start from 0 (R226). -/
def perfCommitted (old s : State) : State :=
  (everListed .perfSel old s).foldl (fun s c =>
    if old.obj .perfSel c == s.obj .perfSel c then s else s.puts c [(F.perfCnt_VALUE, 0), (F.perfCnt_WRAPPED, 0)]) s

/-- The next tick of the muster: a multiple of INTERVAL on the FRC (R228). DEDUCED, log entry 56. -/
def musterTickAfter (s : State) : Nat :=
  let i := s.get F.musterCfg_INTERVAL 0 * 1000
  (s.frc / i + 1) * i

/-- A COMMIT of unit TELEM starts or retimes the muster's ticks (R228). DEDUCED, log entry 56. -/
def musterCommitted (old s : State) : State :=
  if s.on F.musterCfg_EN 0 &&
      (!old.on F.musterCfg_EN 0 || old.get F.musterCfg_INTERVAL 0 != s.get F.musterCfg_INTERVAL 0) then
    { s with muster := { s.muster with nextTick := musterTickAfter s } }
  else s

/-- A COMMIT of unit IDENT: the first one lets the shepherd challenge (R357); a changed ROLE applies at once (R350). -/
def identCommitted (old s : State) : State :=
  let s := { s with mgmt := { s.mgmt with committed := true } }
  if old.get F.roleCfg_ROLE 0 == s.get F.roleCfg_ROLE 0 then s
  else s.put F.identStatus_STATE 0 (if s.get F.roleCfg_ROLE 0 == 1 then 0 else 1)

/-- A COMMIT of unit CROOK: a station that starts to take part claims (R289); one that stops originates nothing (R290). -/
def crookCommitted (old s : State) : State :=
  match old.on F.cmdCfg_SB_EN 0, s.on F.cmdCfg_SB_EN 0 with
  | false, true =>
    let fault := s.get F.cmdStatus_SB_STATE 0 == 3
    let s := s.put F.cmdStatus_SB_STATE 0 0
    let s := if fault then clearLevel 0x0E (instOf 0x12 0) s else s
    { s with crook := { s.crook with sb := { s.crook.sb with claimSince := s.frc, lastClaim := s.frc, lastToken := s.frc } } }
  | _, _ => s

/-- What a near-end loopback had not yet returned is lost once the lanes return nothing (R53). DEDUCED, log entry 115. -/
def loopsCleared (s : State) : State :=
  let s := s.ports.foldl (fun s e =>
    if hearsLoop (frontLanes e.1 s) s then s else s.setPort e.1 { s.port e.1 with loop := [] }) s
  s.flock.links.foldl (fun s e =>
    if hearsLoop (octetLanes e.1) s then s
    else s.setLink e.1 { s.link e.1 with loop := [], loopCtrl := [], loopTime := [] }) s

/-- What a unit does at its COMMIT, from the settings before it. -/
def unitCommitted (u : Nat) (old s : State) : State :=
  match u with
  | 0x01 => portsCommitted old s
  | 0x03 => drove s
  | 0x02 => pump (loopsCleared ((List.range 1024).foldl (fun s l => laneCommitted old l s) s))
  | 0x04 => paceCommitted s
  | 0x08 => actionsCommitted old s
  | 0x0A => pump (foldCommitted old s)
  | 0x0B => pump (schedCommitted old s)
  | 0x0C => pump (musterCommitted old (exportCommitted old s))
  | 0x0D => timeCommitted old s
  | 0x0E => flockCommitted old s
  | 0x12 => crookCommitted old s
  | 0x13 => perfCommitted old s
  | 0x14 => flashCommitted old s
  | 0x15 => identCommitted old s
  | _ => s

/-! ## COMMIT and DISCARD_STAGED of a unit -/

/-- The objects of a unit that either store lists. -/
def unitObjects (u : Nat) (s : State) : List (Cls × Nat) :=
  (((s.live ++ s.staged).filter fun e => oidUnit e.1 == u).map (·.1)).filterMap decodeOid

/-- The staged settings of a unit become live. -/
def liveUnit (u : Nat) (s : State) : State :=
  (unitObjects u s).foldl (fun t o =>
    t.setObj o.1 o.2 (mergeBits (t.obj o.1 o.2) (s.stagedObj o.1 o.2) (accMask o.1 [.ST]))) s

/-- DISCARD_STAGED of a unit: the staged copies become the live values. -/
def discardUnit (u : Nat) (s : State) : State :=
  (unitObjects u s).foldl (fun t o =>
    t.setStagedObj o.1 o.2 (mergeBits (t.stagedObj o.1 o.2) (s.obj o.1 o.2) (accMask o.1 [.ST]))) s

/-- The staged store with the values that objects had when the COMMIT was accepted (R10). -/
def atAcceptance (late : List (Nat × ObjVal)) (s : State) : State :=
  late.foldl (fun s e => match decodeOid e.1 with
    | some (c, i) => s.setStagedObj c i e.2
    | none => s) s

/-- The settings of a unit applied, from the staged values at acceptance; the staged copies stay. -/
def applyUnit (u : Nat) (late : List (Nat × ObjVal)) (s : State) : State :=
  let t := liveUnit u (atAcceptance late s)
  unitCommitted u s { t with staged := s.staged }

/-- A COMMIT of one unit: its status and the state. -/
def commitUnit (u : Nat) (late : List (Nat × ObjVal)) (s : State) : Nat × State :=
  if unitOk u [u] (atAcceptance late s) then (stOk, applyUnit u late s) else (stBadParam, s)

end Sys2Proof.Machine
end

