-- ==== Sys2Proof/Machine/Escalate.lean ====
section
/-! DEFINITION. Machine/Escalate.lean: what ISOLATE and RESET do to the units of Table FA-7, for an escalation and for
UNIT_RESET (R179, R325, R326), and the escalation itself. -/

namespace Sys2Proof.Machine

open Sys2Proof

/-! ## Fold recovery (R179) -/

/-- A frame that the fold holds is dropped as DR_ECC; one in transmission is cut off. -/
def foldDrop (f : Frame) (s : State) : State :=
  match f.loc with
  | .queue _ => if f.ended then dropQueued f drEcc s else departed f.qnum (s.pushFrame { f with loc := .tail, bad := drEcc })
  | .hostWait _ _ => refreshActive 1024 (hostEnd f drEcc s)
  | .tx _ _ => cutOff f drEcc s
  | _ => s

/-- Every block is a pool B block, whatever its POOL (R178). -/
def allPoolB (s : State) : State := (List.range 256).foldl (fun s b => s.put F.carve_LIVE_POOL b 1) s

/-- The link memory and the free-cell bitmaps are rewritten (R179 step 3): their words store fresh check bits. -/
def freshMaps (s : State) : State :=
  let mapped (chk : Nat) : Bool := chk == instOf 0x0A 256 || chk == instOf 0x0A 257
  { s with flt := { s.flt with upset := s.flt.upset.filter fun u => !mapped (u.1 / 2 ^ 64) } }

/-- Steps 1 to 3: the frames go, every account and cell is free, and the fold is in uniform mode under the override.
DEDUCED, log entry 73. -/
def foldRecover (s : State) : State :=
  let s := s.frames.foldl (fun s f => foldDrop f s) s
  let s := freshMaps s
  let frames := s.frames.map fun f => { f with cells := [], charge := 0 }
  let s := allPoolB { s with frames, fold := { used := [], override := true } }
  let s := (s.listed .reqStatus).foldl (fun s r =>
    reqChanged r (s.puts r [(F.reqStatus_USED, 0), (F.reqStatus_HDRM_USED, 0)])) s
  s.puts 0 [(F.foldStatus_SHARED_FREE, s.get F.foldStatus_SHARED_BU 0), (F.foldStatus_RECOVERING, 1)]

/-- The override ends: each block without an allocated cell returns to its live POOL at once, and one that holds cells
drains first (R170, R178). -/
def overrideEnd (s : State) : State :=
  (List.range 256).foldl (fun s b => blockSettle b s) { s with fold := { s.fold with override := false } }

/-- FOLD_RECOVERY_DONE: steps 4 and 5. DEDUCED, log entry 73. -/
def foldRecoveryDoneDo (s : State) : State :=
  if s.on F.foldStatus_RECOVERING 0 then pump (overrideEnd (s.put F.foldStatus_RECOVERING 0 0)) else s

/-! ## Scrub (Table FA-7) -/

/-- The object that a stored word of a checker belongs to, and the word's place in it, the lowest word 0. -/
def wordObject (chk place : Nat) : Option (Cls × Nat × Nat) :=
  if chk / 2 ^ 24 == 0x05 && chk % 2 ^ 24 < 1024 then
    let bucket := place / 8 * 1024 + chk % 2 ^ 24
    some (.emSlot, bucket * 4 + place % 8 / 2, 1 - place % 2)
  else (decodeOid (place / 16)).map fun o => (o.1, o.2, o.1.row.width / 64 - 1 - place % 16)

/-- A record of four words. -/
def recOfWords (a b c d : Word) : Rec :=
  { seq := a.toNat / 2 ^ 32, code := a.toNat / 2 ^ 24 % 256, inj := bit a.toNat 23, realInj := bit a.toNat 22,
    isOpen := bit a.toNat 21, restored := bit a.toNat 20, cls := a.toNat / 2 ^ 18 % 4, rep := a.toNat % 65536,
    tsSec := b.toNat / 65536, devid := b.toNat / 64 % 1024, tsNs := c.toNat / 2 ^ 32, info0 := c.toNat % 2 ^ 32,
    info1 := d.toNat / 2 ^ 32, crc := d.truncate 32 }

/-- A word of a record is zero; word 0 is W3. -/
def zeroRecWord (w : Nat) (r : Rec) : Rec :=
  let g (k : Nat) : Word := if k + w == 3 then 0 else r.words.getD k 0
  recOfWords (g 0) (g 1) (g 2) (g 3)

/-- Record i of the store, counted from FIRST_SEQ, changed. -/
def changeRec (i : Nat) (f : Rec → Rec) (s : State) : State :=
  let recs := closeDue s.frc s.log.recs
  let recs := match recs[i]? with
    | some e => recs.set i { e with r := f e.r }
    | none => recs
  { s with log := { s.log with recs } }

/-- The values of an object that its unit keeps in exact form become those of v; m covers the word that v changes. -/
def keepExact (c : Cls) (i w : Nat) (v m : ObjVal) (s : State) : State :=
  match c with
  | .polState => polStateWriteDo i (fldGet v F.polState_BKT_C) (fldGet v F.polState_BKT_E) s
  | .shaper => if covers m F.shaper_CREDIT then setCredit i (toSigned 42 (fldGet v F.shaper_CREDIT) * 625) s else s
  | .tod =>
    setTod (todOf16 ((fldGet v F.tod_SEC * 10 ^ 9 + fldGet v F.tod_NS) * 65536 + fldGet v F.tod_FRAC)) s
  | .timeStatus =>
    { s with time := { s.time with adj := toSigned 40 (fldGet v F.timeStatus_FREQ_ADJ) * 256,
                                   integ := toSigned 40 (fldGet v F.timeStatus_INTEG) * 256 } }
  | .recEntry => changeRec i (zeroRecWord w) s
  | _ => s

/-- The reset value of an object on this device: with CFG_ROLE latched high, ROLE is 10 and STATE is 01 (R364, Tables FM-2 and
FM-3). -/
def strapped (c : Cls) (s : State) (v : ObjVal) : ObjVal :=
  match c with
  | .roleCfg => if s.sys.role then fldSet v F.roleCfg_ROLE 2 else v
  | .identStatus => if s.sys.role then fldSet v F.identStatus_STATE 1 else v
  | _ => v

/-- A stored word takes its reset value. DEDUCED, log entries 59, 72. -/
def resetWord (chk place : Nat) (s : State) : State :=
  match wordObject chk place with
  | none => s
  | some (c, i, w) =>
    let m : ObjVal := BitVec.ofNat 512 ((2 ^ 64 - 1) * 2 ^ (64 * w))
    let r := strapped c s (resetVal c i)
    keepExact c i w (mergeBits (view c i s) r m) m (s.setObj c i (mergeBits (s.obj c i) r m))

/-- The scrub of a checker's words: those whose check fails are rewritten to their reset value, correctable ones are
corrected, and the others are kept. DEDUCED, log entries 59, 72. -/
def scrub (chk : Nat) (s : State) : State :=
  let mine := s.flt.upset.filter fun u => u.1 / 2 ^ 64 == chk
  let s := mine.foldl (fun s u => if weight8 u.2 % 2 == 0 then resetWord chk (u.1 % 2 ^ 64) s else s) s
  { s with flt := { s.flt with upset := s.flt.upset.filter fun u => u.1 / 2 ^ 64 != chk } }

/-! ## ISOLATE and RESET -/

/-- Isolation of an instance is lifted. -/
def liftIsolation (inst : Nat) (s : State) : State :=
  { s with flt := { s.flt with isolated := s.flt.isolated.filter (· != inst) } }

/-- An instance is isolated. -/
def addIsolated (inst : Nat) (s : State) : State :=
  if s.isolated inst then s else { s with flt := { s.flt with isolated := s.flt.isolated ++ [inst] } }

/-- Every command queue and every ring of the host port is off (Table FA-7). -/
def hostReset (s : State) : State := queuesOff (ringsOff s)

/-- What waits for a held command that is cut off is given up: a version commit or prepare, a clear of the log, relays. -/
def abandon (n : Nat) (s : State) : State :=
  let s := if s.ver.wait.any fun w => w.who == some n then endWait s else s
  let s := { s with mgmt := { s.mgmt with
    relays := s.mgmt.relays.filter (·.n != n), bcasts := s.mgmt.bcasts.filter (·.n != n) } }
  if !s.log.clears.contains n then s
  else
    let first := s.log.clears.head? == some n
    let made := first && s.log.cleared
    let s := { s with log := { s.log with clears := s.log.clears.filter (· != n), cleared := s.log.cleared && !first } }
    if made then eraseOld s else if s.log.clears.isEmpty && s.log.holding then flushHeld s else s

/-- A held command is cut off and replies ABORTED. -/
def abortHeld (n : Nat) (s : State) : State := replyHeld n stAborted [] (abandon n s)

/-- Every command in a context replies ABORTED, but the resetting one where there is one (Table FA-7). -/
def crookReset (but : Option Nat) (s : State) : State :=
  crookPump ((s.crook.held.filter fun h => h.ctx.isSome && but != some h.n).foldl (fun s h => abortHeld h.n s) s)

/-- A lane's reset: an L2 exit (R38), its isolation lifted. -/
def laneReset (l : Nat) (s : State) : State :=
  let s := liftIsolation (laneInst l) s
  let t := laneTarget l s
  if t == 2 then laneGo l s else laneMove l t true s

/-- A flock link's reset: the framer hunts afresh (R256), its isolation lifted. -/
def flockReset (o : Nat) (s : State) : State :=
  let s := liftIsolation (linkInst o) s
  if framerRuns o s then startHunt o s else s

/-- The scrub of every word of a unit whose check fails. -/
def scrubUnit (u : Nat) (s : State) : State :=
  ((s.flt.upset.map fun e => e.1 / 2 ^ 64).filter fun chk => chk / 2 ^ 24 == u).eraseDups.foldl (fun s k => scrub k s) s

/-- RESET of an instance (Table FA-7). -/
def resetInst (inst : Nat) (s : State) : State :=
  let n := inst % 2 ^ 24
  match inst / 2 ^ 24 with
  | 0x02 => laneReset n s
  | 0x04 => if n == 96 then raceResetDo (scrub inst s) else drove (liftIsolation inst (penResetDo n (scrub inst s)))
  | 0x05 | 0x06 | 0x07 => liftIsolation inst (scrub inst s)
  | 0x0A => pump (foldRecover s)
  | 0x0E => flockReset n s
  | 0x0F => hostReset s
  | 0x11 => s.log.clears.foldl (fun s n => abortHeld n s) (scrubUnit 0x11 s)
  | 0x12 => crookReset none s
  | u => scrubUnit u s

/-- ISOLATE of an instance (Table FA-7): the race store is reset in its place. -/
def isolateInst (inst : Nat) (s : State) : State :=
  let n := inst % 2 ^ 24
  match inst / 2 ^ 24 with
  | 0x02 => laneGo n (addIsolated inst s)
  | 0x04 => if n == 96 then raceResetDo s else addIsolated inst s
  | 0x0E => stopFramer n (addIsolated inst s)
  | _ => addIsolated inst s

/-- The instances that an escalation acts on: a PLL of an octet stands for the octet's lanes (R56, Table FA-7). -/
def actedOn (src inst : Nat) : List Nat :=
  if src == 0x0B then (rangeFrom (inst % 2 ^ 24 * 8) 8).map laneInst else [inst]

/-! ## Escalation (R325) -/

/-- An escalation's action on its instances. -/
def actDue (d : Due) (s : State) : State :=
  match d.action with
  | 0 => (d.insts.flatMap (actedOn d.src)).foldl (fun s i => isolateInst i s) s
  | 1 => d.insts.foldl (fun s i => resetInst i s) s
  | _ => s

/-- The window of a source has expired. -/
def windowOver (src : Nat) (s : State) : Bool :=
  s.on F.srcStatus_PENDING src && s.flt.timers.any fun e => e.1 == src && e.2 ≤ s.frc

/-- ESCALATION_EXPIRY of a source: its window has expired, or a ninth instance has escalated it before, and the action is
taken. DEDUCED, log entry 31. -/
def escalateDo (src : Nat) (s : State) : State :=
  let s := whenever (windowOver src s) (escalateNow src) s
  let mine := s.flt.due.filter (·.src == src)
  let s := { s with flt := { s.flt with due := s.flt.due.filter (·.src != src) } }
  mine.foldl (fun s d => actDue d s) s

/-- ESCALATION_TIMER_STOP: LIVE has cleared on a level source with TRANSIENT_OK 1 (R323). -/
def timerStopDo (src : Nat) (s : State) : State :=
  if srcLevel src && s.on F.srcCfg_TRANSIENT_OK src && !s.on F.srcStatus_LIVE src && s.on F.srcStatus_PENDING src then
    stopTimer src s
  else s

/-! ## UNIT_RESET (R326) -/

/-- The instances of a unit that UNIT_RESET may name; none where the unit or the INDEX names none. DEDUCED, log entry 74. -/
def resetTargets (u idx : Nat) : List Nat :=
  let count : Nat := match u with
    | 0x01 | 0x0E => 128
    | 0x02 => 1024
    | 0x04 => 97
    | 0x05 => 1026
    | 0x06 => 2048
    | 0x07 => 17
    | 0x08 | 0x0C => 4
    | 0x0A => 259
    | 0x0B => 1035
    | 0x12 => 16
    | 0x03 | 0x0F | 0x11 | 0x13 | 0x14 => 1
    | _ => 0
  if idx == 0xFFFFFFFF then (List.range count).map (instOf u) else if idx < count then [instOf u idx] else []

/-- UNIT_RESET of a unit's instances; a fold or host reset acts once. -/
def unitResetDo (u idx : Nat) (s : State) : State :=
  let ts := resetTargets u idx
  let ts := if u == 0x0A || u == 0x0F then ts.take 1 else ts
  ts.foldl (fun s i => resetInst i s) s

end Sys2Proof.Machine
end

