-- ==== Sys2Proof/Machine/Commands.lean ====
section
/-! DEFINITION. Machine/Commands.lean: the rules of each opcode's parameters, the length of its longest reply, and what it does
on the device that executes it (R277 to R279, Table CP-11 and the chapters it names). -/

namespace Sys2Proof.Machine

open Sys2Proof

/-- A status and the parameters of a reply. -/
abbrev Answer := Nat × List Word

/-- What a command does in its context: its answer, none while it waits. A limit stops it after so many of its parts (R312). -/
abbrev Body := Held → Option Nat → State → Option Answer × State

/-- A command of one part. -/
def onePart (limit : Option Nat) (s : State) (r : Answer × State) : Option Answer × State :=
  if limit == some 0 then (some (stMachineCheck, []), s) else (some r.1, r.2)

/-- The parts that a limit leaves. -/
def limitTo {α : Type} (limit : Option Nat) (xs : List α) : List α :=
  match limit with
  | some k => xs.take k
  | none => xs

/-! ## Parameters (Table CP-11) -/

/-- An object range of a packet: its class, first index and count, where R6 admits it. -/
def objectsOf (p : Packet) : Option (Cls × Nat × Nat) :=
  match decodeOid p.obj with
  | some (c, i) => if rangeOk c i p.count then some (c, i, p.count) else none
  | none => none

/-- The entries of a WRITE_LIST as writes: each names an object of the device other than COLLECT and holds its whole value
(R292). -/
def listWrites (p : Packet) : Option (List (Cls × Nat × ObjVal × ObjVal)) :=
  match listEntries p.params.length p.params with
  | none => none
  | some es =>
    if es.all fun e => match decodeOid e.1 with
        | some (c, _) => c != .collect && e.2.length == objWords c
        | none => false
    then some (es.filterMap fun e => (decodeOid e.1).map fun o => (o.1, o.2, ofWords e.2, BitVec.allOnes 512))
    else none

/-- The units that a COMMIT or DISCARD_STAGED names, rising, and whether it takes a bitmap; none for a reserved unit (R6,
R277). DEDUCED, log entry 63. -/
def unitsOf' (p : Packet) : Option (List Nat × Bool) :=
  let u := oidUnit p.obj
  if u != 0 then (if u ≤ 0x15 then some ([u], false) else none)
  else if p.params.isEmpty then none
  else
    let m := pw p 0
    if m % 2 == 1 || 2 ^ 22 ≤ m then none else some ((List.range 22).filter (bit m ·), true)

/-- The version that EXPECT names, where the command carries one (Table CP-11). -/
def expectOf (p : Packet) : Option Nat := if p.params.isEmpty then none else some (pw p 0 % 65536)

/-- EM_INSERT's and its kin's parameters: table, width and key. -/
def emTable' (p : Packet) : Nat := bits (pw p 0) 63 60
def emWide' (p : Packet) : Bool := bit (pw p 0) 59
def emKey' (p : Packet) : Nat := pw p 1 * 2 ^ 128 + pw p 2 * 2 ^ 64 + pw p 3

/-- RULE_INSERT's and RULE_DELETE's index. -/
def ruleIdx (p : Packet) : Nat := bits (pw p 0) 63 60 * 8192 + bits (pw p 0) 44 32

/-- MODE, CAUSE, SHEPHERD and DEVID of ADMIT (R358). -/
def admitMode (p : Packet) : Nat := bits (pw p 0) 63 62
def admitCause (p : Packet) : Nat := bits (pw p 0) 30 28
def admitShepherd (p : Packet) : Nat := bits (pw p 0) 25 16
def admitDev (p : Packet) : Nat := pw p 0 % 1024

/-- A WRITE of COLLECT (R360). -/
def isCollect (p : Packet) : Bool :=
  p.opcode == opWrite && match decodeOid p.obj with
    | some (c, _) => c == .collect
    | none => false

/-- A flock-wide version commit: VERSION_COMMIT with BCAST and ATOMIC on the shepherd (R279, R362). -/
def isFlockCommit (p : Packet) (s : State) : Bool :=
  p.opcode == opVersionCommit && p.v2 && p.bcast && p.atomic && shepherd s

/-- The parameters keep the opcode's rules, as far as the packet, the channel and the role show (R271 step 6). Words beyond
those that Table CP-11 names are ignored. DEDUCED, log entry 63. -/
def paramsOk (ch : Channel) (p : Packet) (s : State) : Bool :=
  let n := p.params.length
  let op := p.opcode
  if op == opRead then
    match objectsOf p with
    | some (c, _, k) => c != .collect && 1 ≤ k && k * objWords c ≤ 1024
    | none => false
  else if op == opWrite then
    if isCollect p then
      shepherd s && p.v2 && p.upstream && p.count == n &&
        (if p.obj % 2 ^ 32 == 0 then n == 5 else 2 ≤ n && n ≤ 1001)
    else match objectsOf p with
      | some (c, _, k) => n == k * objWords c
      | none => false
  else if op == opWriteMasked then
    match objectsOf p with
    | some (c, _, k) => c != .collect && k == 1 && n == 2 * objWords c
    | none => false
  else if op == opWriteList then (listWrites p).isSome
  else if op == opReadDma then
    match objectsOf p with
    | some (c, _, k) => c != .collect && 1 ≤ k && 1 ≤ n && chanCode ch == 0 && k * objWords c ≤ 2 ^ 21
    | none => false
  else if op == opCommit || op == opDiscard then (unitsOf' p).isSome
  else if op == opEmInsert then 4 ≤ n && refOk (pw p 0 % 2 ^ 22)
  else if op == opEmDelete then 4 ≤ n
  else if op == opEmLookup then 4 ≤ n && bits (pw p 0) 58 56 ≤ 4
  else if op == opRuleInsert then 11 ≤ n && refOk (pw p 0 % 2 ^ 22)
  else if op == opRuleDelete || op == opLearnAck || op == opFaultAck || op == opFaultInject || op == opVersionPrepare ||
      op == opAdmit then 1 ≤ n
  else if op == opObjRelease then
    match objectsOf p with
    | some (c, _, k) => [Cls.action, .nextHop, .group, .tplCtrl].contains c && k == 1
    | none => false
  else if op == opHitHarvest then
    2 ≤ n && pw p 0 / 2 ^ 32 + pw p 0 % 2 ^ 32 ≤ 82176 && (pw p 1 != 0 || pw p 0 % 2 ^ 32 ≤ 1024)
  else if op == opTallyReadClear then 3 ≤ n && pw p 1 < 2 ^ 32
  else if op == opRecorderRead then 2 ≤ n && pw p 1 % 256 != 0
  else if op == opUnitReset then p.obj / 2 ^ 32 % 256 == 0 && !(resetTargets (oidUnit p.obj) (p.obj % 2 ^ 32)).isEmpty
  else if op == opIdentChallenge then 4 ≤ n
  else if op == opCustodySet then 4 ≤ n && (p.params.take 4).any (· != 0)
  else true

/-- Parameter words of the longest reply of a command (R284). -/
def longestWords (p : Packet) : Nat :=
  let op := p.opcode
  if op == opNop then p.params.length
  else if op == opGetInfo then 6
  else if op == opRead then
    match decodeOid p.obj with
    | some (c, _) => p.count * objWords c
    | none => 0
  else if op == opWriteList then 4
  else if op == opReadDma || op == opEmInsert then 1
  else if op == opCommit || op == opDiscard then (if oidUnit p.obj == 0 then 4 else 0)
  else if op == opEmLookup then 5
  else if op == opHitHarvest then (if pw p 1 == 0 then pw p 0 % 2 ^ 32 else 0)
  else if op == opTallyReadClear then 4
  else if op == opVersionCommit then 1
  else if op == opRecorderRead then 2 + 4 * (pw p 1 % 256)
  else if op == opIdentChallenge then 24
  else 0

/-- Bytes of a reply of so many words. -/
def replyBytes (p : Packet) (words : Nat) : Nat :=
  (if p.v2 then 32 else 16) + 8 * words + (if p.signed then 32 else 0)

/-! ## Reads and writes -/

/-- Reads of k objects from an index on: their words, none where one is uncorrectable (R319). -/
def readMany (staged : Bool) (c : Cls) : Nat → Nat → State → Option (List Word) × State
  | 0, _, s => (some [], s)
  | k + 1, i, s =>
    match readOne staged c i s with
    | (none, s) => (none, s)
    | (some v, s) =>
      match readMany staged c k (i + 1) s with
      | (none, s) => (none, s)
      | (some ws, s) => (some (toWords c v ++ ws), s)

def bodyNop : Body := fun h l s => onePart l s ((stOk, h.req.pkt.params), s)

/-- GET_INFO (Table CP-11). -/
def infoWords (s : State) : List Word :=
  [Config.serial.extractLsb' 64 64, Config.serial.extractLsb' 0 64, bootNonce s,
   BitVec.ofNat 64 (s.get F.crookId_ROM_ID 0 * 2 ^ 32 + s.sys.devid % 1024 * 2 ^ 16 + s.get F.roleCfg_ROLE 0 * 2 ^ 14 + 3),
   BitVec.ofNat 64 s.crook.winH.high, BitVec.ofNat 64 s.crook.winS.high]

def bodyGetInfo : Body := fun _ l s => onePart l s ((stOk, infoWords s), s)

def bodyRead : Body := fun h l s =>
  let p := h.req.pkt
  match objectsOf p with
  | none => (some (stBadParam, []), s)
  | some (c, i, k) =>
    match readMany p.staged c (match l with | some m => min m k | none => k) i s with
    | (some ws, s) => (some (stOk, ws), s)
    | (none, s) => (some (stAborted, []), s)

/-- The writes of a WRITE: COUNT objects from OBJ on. -/
def writesOf (p : Packet) : List (Cls × Nat × ObjVal × ObjVal) :=
  match objectsOf p with
  | none => []
  | some (c, i, k) =>
    (List.range k).map fun j => (c, i + j, ofWords ((p.params.drop (j * objWords c)).take (objWords c)), BitVec.allOnes 512)

/-- The writes of one part under a limit. -/
def limitedWrites (ws : List (Cls × Nat × ObjVal × ObjVal)) (l : Option Nat) (s : State) : Nat × State :=
  match l with
  | none => writePart ws s
  | some k => if (writesOk ws s).1 == stOk then writeAll (ws.take k) s else (stOk, s)

def bodyWrite : Body := fun h l s =>
  let r := limitedWrites (writesOf h.req.pkt) l s
  (some (r.1, []), r.2)

def bodyWriteMasked : Body := fun h l s =>
  let p := h.req.pkt
  match objectsOf p with
  | none => (some (stBadParam, []), s)
  | some (c, i, _) =>
    let n := objWords c
    let r := limitedWrites [(c, i, ofWords (p.params.take n), ofWords ((p.params.drop n).take n))] l s
    (some (r.1, []), r.2)

/-- READ_DMA: the words in the order of R13; P0 of the reply is the number of bytes. DEDUCED, log entry 91. -/
def bodyReadDma : Body := fun h l s =>
  let p := h.req.pkt
  match objectsOf p with
  | none => (some (stBadParam, []), s)
  | some (c, i, k) =>
    match readMany p.staged c (match l with | some m => min m k | none => k) i s with
    | (some ws, s) => (some (stOk, [BitVec.ofNat 64 (8 * ws.length)]), dmaWords (pw p 0) ws s)
    | (none, s) => (some (stAborted, []), s)

/-! ## Commands that span units (R277 to R279) -/

/-- The four words of a multi-unit reply (R278): units that completed, units that failed, and each unit's status.
DEDUCED, log entry 64. -/
def multiWords (okUnits : List Nat) (sts : List (Nat × Nat)) : List Word :=
  let fails := (sts.filter fun x => x.2 != stOk).map (·.1)
  let map (us : List Nat) : Nat := (us.map (2 ^ ·)).foldl (· + ·) 0
  let word (k : Nat) : Nat := ((List.range 8).map fun b => lookD 0 sts (8 * k + b) % 256 * 2 ^ (56 - 8 * b)).foldl (· + ·) 0
  BitVec.ofNat 64 (map okUnits % 2 ^ 32 * 2 ^ 32 + map fails % 2 ^ 32) :: (List.range 3).map fun k => BitVec.ofNat 64 (word k)

/-- The answer of a multi-unit command without ATOMIC (R278). -/
def multiAnswer (sts : List (Nat × Nat)) : Answer :=
  let good := sts.filter fun x => x.2 == stOk
  let status := if good.length == sts.length then stOk
    else if !good.isEmpty then stPartial
    else ((sts.find? fun x => x.2 != stOk).map (·.2)).getD stOk
  (status, multiWords (good.map (·.1)) sts)

/-- The answer of an ATOMIC command whose checks find failing parts: nothing has been applied. DEDUCED, log entry 64. -/
def failedAnswer (sts : List (Nat × Nat)) : Answer := (stUnitFailed, multiWords [] sts)

/-- Parts run one unit at a time (R277). -/
def runParts (part : Nat → State → Nat × State) : List Nat → State → List (Nat × Nat) × State
  | [], s => ([], s)
  | u :: us, s =>
    let r := part u s
    let rest := runParts part us r.2
    ((u, r.1) :: rest.1, rest.2)

/-- A multi-unit command: its units, the check of each part for ATOMIC, and a part. -/
def multiRun (atomic : Bool) (units : List Nat) (check : Nat → Nat) (part : Nat → State → Nat × State)
    (l : Option Nat) (s : State) : Option Answer × State :=
  if atomic && units.any fun u => check u != stOk then (some (failedAnswer (units.map fun u => (u, check u))), s)
  else
    let r := runParts part (limitTo l units) s
    (some (multiAnswer r.1), r.2)

/-- The part of a COMMIT in a unit, its check made already for ATOMIC (R279). -/
def commitPart (atomic : Bool) (late : List (Nat × ObjVal)) (u : Nat) (s : State) : Nat × State :=
  if atomic then (stOk, applyUnit u late s) else commitUnit u late s

def bodyCommit : Body := fun h l s =>
  match unitsOf' h.req.pkt with
  | none => (some (stBadParam, []), s)
  | some (us, true) =>
    let a := h.req.pkt.atomic
    multiRun a us (fun u => if unitOk u us (atAcceptance h.late s) then stOk else stBadParam) (commitPart a h.late) l s
  | some (us, false) =>
    let r := commitUnit (us.headD 0) h.late s
    onePart l s ((r.1, []), r.2)

def bodyDiscard : Body := fun h l s =>
  match unitsOf' h.req.pkt with
  | none => (some (stBadParam, []), s)
  | some (us, true) => multiRun false us (fun _ => stOk) (fun u s => (stOk, discardUnit u s)) l s
  | some (us, false) => onePart l s ((stOk, []), discardUnit (us.headD 0) s)

/-- The units of some writes, rising, each once. -/
def writeUnits (ws : List (Cls × Nat × ObjVal × ObjVal)) : List Nat :=
  (List.range 22).filter fun u => ws.any fun w => w.1.row.unit == u

/-- Where the parts of a WRITE_LIST stand: the writes of a unit are checked after those of the units before it (R279). -/
def listChecks (ws : List (Cls × Nat × ObjVal × ObjVal)) (s : State) : List (Nat × Nat) :=
  (runParts (fun u s => writesOk (ws.filter fun w => w.1.row.unit == u) s) (writeUnits ws) s).1

def bodyWriteList : Body := fun h l s =>
  match listWrites h.req.pkt with
  | none => (some (stBadParam, []), s)
  | some ws =>
    let checks := if h.req.pkt.atomic then listChecks ws s else []
    multiRun h.req.pkt.atomic (writeUnits ws) (fun u => lookD stOk checks u)
      (fun u s => writePart (ws.filter fun w => w.1.row.unit == u) s) l s

/-! ## Table commands (R125, R126, R129, R135, R140, R145, R220) -/

/-- The words that a command reads to find a key: those of its home bucket, and of the overflow entries of that bucket. -/
def emEval (t key : Nat) (s : State) : State × Bool :=
  let b := emTableHome t key s
  (ovfOf b s).foldl (fun (r : State × Bool) i => let q := evalObj .emOvf i r.1; (q.1, r.2 || q.2))
    (evalWords (instOf 0x05 (emBank b)) (placesOf .emSlot (b * 4)) s)

/-- The table is valid and the key fits it. -/
def emParamOk (p : Packet) (s : State) : Bool :=
  let t := emTable' p
  s.on F.emTable_VALID t && emKey' p < 2 ^ emKeyWidth (s.on F.emTable_WIDE t) (s.get F.emTable_KIND t)

/-- OVF[63] and INDEX[31:0] of a place. -/
def placeWord : EmLoc → Word
  | .home i => BitVec.ofNat 64 i
  | .ovf i => BitVec.ofNat 64 (2 ^ 63 + i)

/-- The four words of an entry, a narrow one right-aligned. -/
def entryWords (e : EmEntry) : List Word := (List.range 4).map fun k => BitVec.ofNat 64 (e.raw / 2 ^ (64 * (3 - k)))

/-- What EM_INSERT answers to an insertion made or refused; one that finds no space counts in INSERT_FAIL. -/
def emInserted (t key : Nat) (s : State) : Except Nat State → Answer × State
  | .error st => ((st, []), if st == stNoSpace then s.inc F.emStatus_INSERT_FAIL 0 else s)
  | .ok s' =>
    let w := match emFind t key (stagedVer s) s' with
      | some (l, _) => placeWord l
      | none => 0
    ((stOk, [w]), s')

def emInsertRun (p : Packet) (s : State) : Answer × State :=
  let t := emTable' p
  let r := if emParamOk p s then emEval t (emKey' p) s else (s, false)
  if r.2 then ((stAborted, []), r.1)
  else emInserted t (emKey' p) r.1 (emInsertDo t (emWide' p) (emKey' p) (pw p 0 % 2 ^ 22) (stagedVer r.1) r.1)

def bodyEmInsert : Body := fun h l s => onePart l s (emInsertRun h.req.pkt s)

def emDeleteRun (p : Packet) (s : State) : Answer × State :=
  if !emParamOk p s then ((stBadParam, []), s)
  else
    let r := emEval (emTable' p) (emKey' p) s
    if r.2 then ((stAborted, []), r.1)
    else match emFind (emTable' p) (emKey' p) (stagedVer r.1) r.1 with
      | none => ((stNotFound, []), r.1)
      | some (l, e) => ((stOk, []), emRetire l e (stagedVer r.1) r.1)

/-- EM_DELETE; the WIDE of the table is used. DEDUCED, log entry 66. -/
def bodyEmDelete : Body := fun h l s => onePart l s (emDeleteRun h.req.pkt s)

def emLookupRun (p : Packet) (s : State) : Answer × State :=
  if !emParamOk p s then ((stBadParam, []), s)
  else
    let slot := bits (pw p 0) 58 56
    let r := emEval (emTable' p) (emKey' p) s
    if r.2 then ((stAborted, []), r.1)
    else match emFind (emTable' p) (emKey' p) (if slot == 4 then stagedVer r.1 else r.1.get F.slot_VER slot) r.1 with
      | none => ((stNotFound, []), r.1)
      | some (l, e) => ((stOk, placeWord l :: entryWords e), r.1)

/-- EM_LOOKUP; a FREE slot's VER is the one it holds. DEDUCED, log entry 66. -/
def bodyEmLookup : Body := fun h l s => onePart l s (emLookupRun h.req.pkt s)

def ruleInsertRun (p : Packet) (s : State) : Answer × State :=
  let i := ruleIdx p
  let (s, bad) := evalObj .ruleCtrl i s
  if bad then ((stAborted, []), s)
  else if s.on F.ruleCtrl_VALID i then ((stBusy, []), s)
  else
    let s := (clearUpset .ruleKey i s).setObj .ruleKey i (ofWords ((p.params.drop 1).take 5))
    let s := (clearUpset .ruleMask i s).setObj .ruleMask i (ofWords ((p.params.drop 6).take 5))
    ((stOk, []), ruleInsertDo i (pw p 0 % 2 ^ 22) (stagedVer s) s)

def bodyRuleInsert : Body := fun h l s => onePart l s (ruleInsertRun h.req.pkt s)

def ruleDeleteRun (p : Packet) (s : State) : Answer × State :=
  let i := ruleIdx p
  let (s, bad) := evalObj .ruleCtrl i s
  if bad then ((stAborted, []), s)
  else if ruleVisible i (stagedVer s) s then ((stOk, []), ruleRetire i (stagedVer s) s)
  else ((stNotFound, []), s)

def bodyRuleDelete : Body := fun h l s => onePart l s (ruleDeleteRun h.req.pkt s)

def objReleaseRun (p : Packet) (s : State) : Answer × State :=
  match decodeOid p.obj with
  | none => ((stBadParam, []), s)
  | some (c, i) =>
    let (s, bad) := evalObj c i s
    if bad then ((stAborted, []), s)
    else match releaseDo c i (stagedVer s) s with
      | none => ((stNotFound, []), s)
      | some s => ((stOk, []), s)

def bodyObjRelease : Body := fun h l s => onePart l s (objReleaseRun h.req.pkt s)

/-- HIT_HARVEST: words of HIT_WORD, cleared as they are read, into the reply or into host memory. -/
def bodyHitHarvest : Body := fun h l s =>
  let p := h.req.pkt
  let k := pw p 0 % 2 ^ 32
  match readMany false .hitWord (match l with | some m => min m k | none => k) (pw p 0 / 2 ^ 32) s with
  | (none, s) => (some (stAborted, []), s)
  | (some ws, s) => if pw p 1 == 0 then (some (stOk, ws), s) else (some (stOk, []), dmaWords (pw p 1) ws s)

/-- LEARN_ACK removes the filter entry of an address and FID. -/
def learnAckRun (p : Packet) (s : State) : Answer × State :=
  let same (e : FilterEntry) : Bool := e.addr == pw p 0 % 2 ^ 48 && e.fid == bits (pw p 0) 61 48
  if s.tab.filter.any same then
    ((stOk, []), { s with tab := { s.tab with filter := s.tab.filter.filter fun e => !same e } })
  else ((stNotFound, []), s)

def bodyLearnAck : Body := fun h l s => onePart l s (learnAckRun h.req.pkt s)

/-- TALLY_READ_CLEAR: the entry visible to the CURRENT version, whose bits 213:96 become zero. -/
def tallyReadClearRun (p : Packet) (s : State) : Answer × State :=
  let t := emTable' p
  let key := pw p 1 * 2 ^ 64 + pw p 2
  if !s.on F.emTable_VALID t || s.get F.emTable_KIND t != 1 then ((stBadParam, []), s)
  else
    let r := emEval t key s
    if r.2 then ((stAborted, []), r.1)
    else match emFind t key (currentVer r.1) r.1 with
      | none => ((stNotFound, []), r.1)
      | some (l, e) =>
        ((stOk, entryWords e), emWrite l { e with raw := e.raw - bits e.raw 213 96 * 2 ^ 96 } r.1)

def bodyTallyReadClear : Body := fun h l s => onePart l s (tallyReadClearRun h.req.pkt s)

/-! ## Version commands (R161, R162, R361) -/

/-- EXPECT differs from the staged version. -/
def expectDiffers (p : Packet) (s : State) : Bool :=
  match expectOf p with
  | some v => v != stagedVer s
  | none => false

/-- The commit of the staged version now, and what VERSION_COMMIT answers: VER and SLOT. -/
def commitAnswer (s : State) : Answer × State :=
  let n := commitSlot s
  ((stOk, [BitVec.ofNat 64 (n * 2 ^ 16 + stagedVer s)]), commitNow n s)

/-- VERSION_COMMIT: at once where the device is prepared or the condition of R161 holds, else it waits. -/
def bodyVersionCommit : Body := fun h l s =>
  if expectDiffers h.req.pkt s then (some (stVersionConflict, []), s)
  else if s.ver.prepared.isSome || commitReady s then onePart l s (commitAnswer s)
  else (none, startWait (some h.n) false h.frc s)

def bodyVersionDiscard : Body := fun h l s =>
  if expectDiffers h.req.pkt s then (some (stVersionConflict, []), s) else onePart l s ((stOk, []), discardNow s)

/-- The lowest FREE slot is reserved (R361). -/
def prepareNow (s : State) : State := { s with ver := { s.ver with prepared := freeSlotOf s } }

def bodyVersionPrepare : Body := fun h l s =>
  if expectDiffers h.req.pkt s then (some (stVersionConflict, []), s)
  else if s.ver.prepared.isSome then (some (stBusy, []), s)
  else if commitReady s then onePart l s ((stOk, []), prepareNow s)
  else (none, startWait (some h.n) true h.frc s)

/-! ## Recorder (R336, R338) -/

/-- The place of a SEQ in the store. -/
def seqPlace (q : Nat) (es : List LogEntry) : Nat := (es.takeWhile fun e => e.r.seq != q).length

/-- The log with the records closed whose open time has passed (R334). -/
def closedLog (s : State) : State := { s with log := { s.log with recs := closeDue s.frc s.log.recs } }

/-- The checkers of the stored words of n records from a SEQ on; whether one is uncorrectable (R319). -/
def evalRecords (first n : Nat) (s : State) : State × Bool :=
  (rangeFrom (seqPlace first s.log.recs) n).foldl
    (fun (r : State × Bool) i => let q := evalObj .recEntry i r.1; (q.1, r.2 || q.2)) (s, false)

/-- The words of a RECORDER_READ reply (R336). -/
def recorderWords (rs : List Rec) (s : State) : List Word :=
  BitVec.ofNat 64 (s.log.logId * 2 ^ 32 + s.log.lastSeq) :: BitVec.ofNat 64 (s.log.firstSeq * 2 ^ 32 + rs.length) ::
    rs.flatMap Rec.words

def recorderReadRun (p : Packet) (s : State) : Answer × State :=
  let first := pw p 0 % 2 ^ 32
  let s := closedLog s
  match readLog first (pw p 1 % 256) s with
  | none => ((stNotFound, []), s)
  | some rs =>
    let r := evalRecords first rs.length s
    if r.2 then ((stAborted, []), r.1) else ((stOk, recorderWords rs s), r.1)

def bodyRecorderRead : Body := fun h l s => onePart l s (recorderReadRun h.req.pkt s)

/-- The clears that are over reply, and the next ones go on; the fuel bounds them. -/
def settleClears : Nat → State → State
  | 0, s => s
  | k + 1, s =>
    match clearNext (tryClear s) with
    | (some n, s) => settleClears k (answer n stOk [] s)
    | (none, s) => s

/-- Every clear that can go on. -/
def settleLog (s : State) : State := settleClears (s.log.clears.length + 1) s

def bodyRecorderClear : Body := fun h _ s => (none, clearStart h.n s)

/-! ## Faults, reset, identity -/

def faultAckRun (p : Packet) (s : State) : Answer × State :=
  let src := pw p 0 % 65536
  if !srcDefined src then ((stBadParam, []), s)
  else match faultAckDo src s with
    | some s => ((stOk, []), s)
    | none => ((stNotFound, []), s)

def bodyFaultAck : Body := fun h l s => onePart l s (faultAckRun h.req.pkt s)

def faultInjectRun (p : Packet) (s : State) : Answer × State :=
  match faultInjectDo (bits (pw p 0) 47 16) (pw p 0 % 65536) s with
  | .ok s => ((stOk, []), s)
  | .error true => ((stBadParam, []), s)
  | .error false => ((stBusy, []), s)

def bodyFaultInject : Body := fun h l s => onePart l s (faultInjectRun h.req.pkt s)

/-- A UNIT_RESET that takes time is not complete: the fold recovers (R179), a named lane is in its L2 exit (R38).
DEDUCED, log entry 74. -/
def resetRuns (p : Packet) (s : State) : Bool :=
  match oidUnit p.obj with
  | 0x02 => (resetTargets 0x02 (p.obj % 2 ^ 32)).any fun i => inExit (i % 2 ^ 24) s
  | 0x0A => s.on F.foldStatus_RECOVERING 0
  | _ => false

/-- The UNIT_RESETs in progress in contexts. -/
def resetsHeld (s : State) : List Held :=
  s.crook.held.filter fun h => h.ctx.isSome && h.req.pkt.opcode == opUnitReset && !elsewhere h.req.pkt s

/-- UNIT_RESET: other ones in progress on the unit reply ABORTED; the reply follows once the reset is complete; that of CROOK
acts on the other contexts after its reply (R326). -/
def bodyUnitReset : Body := fun h l s =>
  let p := h.req.pkt
  let u := oidUnit p.obj
  match l with
  | some 0 => (none, s)
  | _ =>
    let t := ((resetsHeld s).filter fun e => e.n != h.n && oidUnit e.req.pkt.obj == u).foldl (fun s e => abortHeld e.n s) s
    let t := if u == 0x12 then t else unitResetDo u (p.obj % 2 ^ 32) t
    if l.isNone && resetRuns p t then (none, t) else (some (stOk, []), t)

/-- The records that wait are programmed, page by page; the fuel bounds the pages. -/
def programAll : Nat → State → State
  | 0, s => s
  | k + 1, s => if s.flash.prog.isNone then s else programAll k (programDoneDo s)

/-- DEVICE_RESET: the open records are closed and programmed, and the reset is due (R376). -/
def bodyDeviceReset : Body := fun _ l s =>
  let s' := closeAll s
  let s' := programAll (s'.log.recs.length + 2) s'
  onePart l s ((stOk, []), { s' with sys := { s'.sys with resetDue := true } })

/-- The bytes that IDENT_CHALLENGE signs (R356). -/
def challengeBytes (nonce : List Word) (serial : BitVec 128) (boot : BitVec 64) (devid : Nat) (key : BitVec 392) :
    List Byte :=
  nonce.flatMap beBytes ++ natBytes 16 serial.toNat ++ natBytes 8 boot.toNat ++ natBytes 2 devid ++ natBytes 49 key.toNat

/-- The reply of IDENT_CHALLENGE (R356). -/
def challengeWords (nonce : List Word) (s : State) : List Word :=
  let msg := challengeBytes nonce Config.serial (bootNonce s) s.sys.devid Config.identKey
  [Config.serial.extractLsb' 64 64, Config.serial.extractLsb' 0 64, bootNonce s, BitVec.ofNat 64 (s.sys.devid % 1024)] ++
    ((List.range 7).map fun k => BitVec.ofNat 64 (Config.identKey.toNat / 2 ^ (64 * (6 - k)))) ++
    ((List.range 12).map fun k => Config.sign msg k) ++ [BitVec.ofNat 64 s.crook.winS.high]

def bodyIdentChallenge : Body := fun h l s => onePart l s ((stOk, challengeWords (h.req.pkt.params.take 4) s), s)

/-- CUSTODY_SET (R352). -/
def custodySetRun (p : Packet) (s : State) : Answer × State :=
  if s.crook.writesLeft == 0 then ((stNoSpace, []), s)
  else
    let k := (p.params.take 4).foldl (fun x w => x * 2 ^ 64 + w.toNat) 0
    ((stOk, []), recPlain 0x53 0 0 { s with crook := { s.crook with secret := some k, writesLeft := s.crook.writesLeft - 1 } })

def bodyCustodySet : Body := fun h l s => onePart l s (custodySetRun h.req.pkt s)

end Sys2Proof.Machine
end

