-- ==== Sys2Proof/Machine/Muster.lean ====
section
/-! DEFINITION. Machine/Muster.lean: periodic dumps of objects to the buffers of PF2 or, in chunks, to the shepherd (R227 to R230,
R305, R359). -/

namespace Sys2Proof.Machine

open Sys2Proof

/-- RELAY_TIMEOUT in ns (Table FM-3). -/
def relayWait (s : State) : Nat := s.get F.roleCfg_RELAY_TIMEOUT 0 * 1000

/-- The shepherd that the last accepted ADMIT named. -/
def shepherdId (s : State) : Nat := s.get F.identStatus_SHEPHERD_ID 0

/-- The tags of the requests that a device originates itself (the manual states none). DEDUCED, log entry 67. -/
def tagChallenge : Nat := 0xFFFF0000
def tagAdmit : Nat := 0xFFFF0001
def tagPrepare : Nat := 0xFFFF0002
def tagCommit : Nat := 0xFFFF0003
def tagDiscard : Nat := 0xFFFF0004
def tagNotice : Nat := 0xFFFF0005
def tagChunk : Nat := 0xFFFF0006
def tagDevices : Nat := 0xFFFF0007

/-- A COLLECT write of a worker: UPSTREAM, from the device to its shepherd (R353, R360). -/
def collectRequest (tag idx : Nat) (params : List Word) (s : State) : Packet :=
  request2 opWrite 1024 tag (shepherdId s) s.sys.devid (oid .collect idx) params.length params

/-! ## What a dump holds -/

/-- The live settings of the muster, as musterRange takes them. -/
def musterLive (s : State) (f : Fld) (i : Nat) : Nat := s.get f i

/-- The words of an object for a dump, read under its own read rule (R229); those of an uncorrectable object are values that
the manual leaves open. DEDUCED, log entry 71. -/
def musterObject (c : Cls) (i : Nat) (s : State) : List Word × State :=
  match readOne false c i s with
  | (some v, s) => (toWords c v, s)
  | (none, s) =>
    ((List.range (objWords c)).map fun k => BitVec.ofNat 64 (Config.freeValue (s.free + k)),
      { s with free := s.free + objWords c })

/-- The words of k objects from an index on. -/
def musterObjects (c : Cls) : Nat → Nat → State → List Word × State
  | 0, _, s => ([], s)
  | k + 1, i, s =>
    let r := musterObject c i s
    let t := musterObjects c k (i + 1) r.2
    (r.1 ++ t.1, t.2)

/-- The words of the list entries from one on (R228). -/
def musterEntries : Nat → Nat → State → List Word × State
  | 0, _, s => ([], s)
  | k + 1, e, s =>
    let r := match musterRange (musterLive s) e with
      | some (c, first, n) => musterObjects c n first s
      | none => ([], s)
    let t := musterEntries k (e + 1) r.2
    (r.1 ++ t.1, t.2)

/-- The payload words of a dump as the list stands. -/
def musterWords (s : State) : Nat :=
  ((List.range (s.get F.musterCfg_NLIST 0)).map fun e => match musterRange (musterLive s) e with
    | some (c, _, n) => objWords c * n
    | none => 0).foldl (· + ·) 0

/-- Header W0, which is the trailer too. -/
def dumpW0 (d : Dump) : Word := BitVec.ofNat 64 (d.seq * 2 ^ 32 + d.payload.length % 2 ^ 32)

/-- Header words W1 to W3 (R228). -/
def dumpHeader (d : Dump) (s : State) : List Word :=
  [BitVec.ofNat 64 (d.start / 10 ^ 9 % 2 ^ 48 * 2 ^ 16 + s.sys.devid % 1024),
   BitVec.ofNat 64 (d.start % 10 ^ 9 * 2 ^ 32 + d.fin % 10 ^ 9),
   BitVec.ofNat 64 (d.fin / 10 ^ 9 % 2 ^ 48 * 2 ^ 16 + d.skipped % 2 ^ 16)]

/-! ## Chunks to the shepherd (R359) -/

/-- Words in chunks of up to 1,000 from a position on; the fuel bounds them. -/
def chunksFrom : Nat → Nat → List Word → List (Nat × List Word)
  | 0, _, _ => []
  | k + 1, off, ws => if ws.isEmpty then [] else (off, ws.take 1000) :: chunksFrom k (off + 1000) (ws.drop 1000)

/-- The chunks of a dump in the writing order of R228: payload and trailer, W1 to W3, then W0. -/
def dumpChunks (d : Dump) (s : State) : List (Nat × List Word) :=
  chunksFrom (d.payload.length + 1) 4 (d.payload ++ [dumpW0 d]) ++ [(1, dumpHeader d s), (0, [dumpW0 d])]

/-- The dump in progress, set. -/
def setDump (d : Option Dump) (s : State) : State := { s with muster := { s.muster with dump := d } }

/-- The first chunk is sent; its answer is awaited. DEDUCED, log entry 75. -/
def sendChunk (d : Dump) (s : State) : State :=
  match d.chunks with
  | [] => setDump none s
  | (off, ws) :: _ =>
    let p := collectRequest tagChunk 1 (BitVec.ofNat 64 (d.seq * 2 ^ 32 + off) :: ws) s
    setDump (some { d with sends := d.sends + 1, deadline := some (s.frc + relayWait s), resend := none })
      (sendRoute (shepherdId s) p s)

/-- A chunk is answered OK: the next one goes, or the dump is complete. -/
def chunkDone (s : State) : State :=
  match s.muster.dump with
  | none => s
  | some d => sendChunk { d with chunks := d.chunks.tail, sends := 0 } s

/-- A chunk has failed: it is sent again 1 ms later, and after the eighth send the dump is abandoned. -/
def chunkFailed (s : State) : State :=
  match s.muster.dump with
  | none => s
  | some d =>
    if 8 ≤ d.sends then (setDump none s).inc F.musterStatus_SKIPPED 0
    else setDump (some { d with deadline := none, resend := some (s.frc + 1000000) }) s

/-- MUSTER_CHUNK_RESEND. -/
def chunkResendDo (s : State) : State :=
  match s.muster.dump with
  | some d =>
    match d.resend with
    | some t => if t ≤ s.frc then sendChunk d s else s
    | none => s
  | none => s

/-- The answer of a chunk is overdue. -/
def chunkOverdue (s : State) : Bool :=
  match s.muster.dump with
  | some d => d.deadline.any fun t => t ≤ s.frc
  | none => false

/-! ## Ticks -/

/-- A tick that takes no dump. -/
def musterSkip (s : State) : State :=
  { s with muster := { s.muster with lost := s.muster.lost + 1 } }.inc F.musterStatus_SKIPPED 0

/-- The dump that the next tick takes. -/
def nextDump (s : State) : Nat := (s.muster.lastSeq + 1) % 2 ^ 32

/-- The address of the buffer of a dump, where the dump fits it (R305). -/
def dumpBuffer (seq : Nat) (s : State) : Option Nat :=
  let b := seq % s.get F.musterCfg_NBUF 0
  if (musterWords s + 5) * 8 ≤ s.get F.musterBuf_PAGES b * 4096 then some (s.get F.musterBuf_ADDR b) else none

/-- The buffer of a dump has been released: seq − RELEASE_SEQ ≤ NBUF, serially modulo 2^32. -/
def dumpReleased (seq : Nat) (s : State) : Bool :=
  toSigned 32 ((seq + 2 ^ 32 - s.get F.musterStatus_RELEASE_SEQ 0) % 2 ^ 32) ≤ (s.get F.musterCfg_NBUF 0 : Int)

/-- Where a tick's dump goes: to a buffer's address, to the shepherd (some none), or nowhere. -/
def dumpTarget (s : State) : Option (Option Nat) :=
  let q := nextDump s
  if s.muster.dump.isSome then none
  else if s.get F.musterCfg_DEST 0 == 1 then some none
  else if dumpReleased q s then (dumpBuffer q s).map some
  else none

/-- The dump of a tick is read, and its payload written or its first chunk sent; its words are evaluated on their way (Table
FA-2). DEDUCED, log entries 33, 75. -/
def takeDump (addr : Option Nat) (s : State) : State :=
  let seq := nextDump s
  let now := s.todNs
  let (ws, s) := musterEntries (s.get F.musterCfg_NLIST 0) 0 s
  let s := (evalWords (instOf 0x0C 3) (rangeFrom 0 ws.length) s).1
  let d : Dump := ⟨seq, ws, now, now, s.muster.lost, addr, [], 0, none, none⟩
  let s := { s with muster := { s.muster with lastSeq := seq, lost := 0, dump := some d } }
  match addr with
  | some a => dmaWords (a + 32) ws s
  | none => sendChunk { d with chunks := dumpChunks d s } s

/-- MUSTER_TICK. -/
def musterTickDo (s : State) : State :=
  if !s.on F.musterCfg_EN 0 || s.flt.fatal || s.frc < s.muster.nextTick then s
  else
    let s := { s with muster := { s.muster with nextTick := musterTickAfter s } }
    match dumpTarget s with
    | none => musterSkip s
    | some addr => takeDump addr s

/-- MUSTER_DUMP_COMPLETE: the trailer, W1 to W3 and W0 are written, and PF2 vector 1 gets an event (Table HP-2). -/
def dumpCompleteDo (s : State) : State :=
  match s.muster.dump with
  | none => s
  | some d =>
    match d.addr with
    | none => s
    | some a =>
      let s := dmaWords (a + 32 + 8 * d.payload.length) [dumpW0 d] s
      let s := dmaWords a [dumpW0 d] (dmaWords (a + 8) (dumpHeader d s) s)
      notify (vecIdx 2 1) (setDump none s)

end Sys2Proof.Machine
end

