-- ==== Sys2Proof/Machine/Mgmt.lean ====
section
/-! DEFINITION. Machine/Mgmt.lean: flock management: relays, BCAST, joining, admission, collection, the flock-wide version
commit, and the packets of control pipes (R349 to R363). -/

namespace Sys2Proof.Machine

open Sys2Proof

/-! ## Members -/

/-- What the shepherd holds for a device it has not met. -/
def memberDefault : MemberSt := { op := none, misses := 0, lastSeq := 0, winS := 0, started := 0 }

def State.memberSt (s : State) (d : Nat) : MemberSt := lookD memberDefault s.mgmt.members d

def State.setMemberSt (s : State) (d : Nat) (v : MemberSt) : State :=
  { s with mgmt := { s.mgmt with members := putD memberDefault s.mgmt.members d v } }


/-- The first packet of a list of devices' relays. -/
def sendAll (ds : List Nat) (f : Nat → Packet) (s : State) : State := ds.foldl (fun s d => sendRoute d (f d) s) s

/-- A packet for a device, RELAYED set (R354). -/
def relayedTo (d : Nat) (p : Packet) : Packet := (p.setH 159 150 d).setFlag 9 true

/-- Flags of the shepherd's own requests: RELAYED, and AUTH with it. -/
def fRelayed : Nat := 512
def fSigned : Nat := 520

/-! ## The flock-wide version commit (R362)

Its entry stays after an UNIT_FAILED reply, for the answers to VERSION_DISCARD. -/

def setCommit (c : Option FlockCommit) (s : State) : State := { s with mgmt := { s.mgmt with commit := c } }

/-- The words of the reply (R362). -/
def flockWords (okDevs badDevs : List Nat) : List Word :=
  let map (w : Nat) : Nat := ((badDevs.filter fun d => d / 64 == w).map fun d => 2 ^ (63 - d % 64)).foldl (· + ·) 0
  BitVec.ofNat 64 (okDevs.length * 2 ^ 32 + badDevs.length) :: (List.range 16).map fun w => BitVec.ofNat 64 (map w)

/-- A version command for the devices of W: EXPECT is the version to commit. -/
def versionRequest (op tag expect d : Nat) : Packet := request2 op fRelayed tag d 0 0 0 [BitVec.ofNat 64 expect]

/-- The devices of W that have not answered. -/
def flockOpen (c : FlockCommit) : List Nat := c.members.filter fun d => !c.ok.contains d && !c.bad.contains d

/-- The version that the commit names: EXPECT, or the shepherd's own staged version where none is given.
DEDUCED, log entry 70. -/
def flockExpect (c : FlockCommit) (s : State) : Nat := c.expect.getD (stagedVer s)

/-- Every device of W has answered VERSION_COMMIT or left MEMBER: the reply goes. -/
def flockEnd (c : FlockCommit) (s : State) : State :=
  let s := setCommit none s
  answer c.n (if c.bad.isEmpty then stOk else stPartial) (flockWords c.ok c.bad) s

/-- Every device of W is prepared: all commit, the shepherd first. -/
def flockCommitAll (c : FlockCommit) (s : State) : State :=
  let v := flockExpect c s
  let others := c.members.filter (· != s.sys.devid)
  let s := commitNow (commitSlot s) s
  let c := { c with phase := 1, expect := some v, ok := [s.sys.devid], bad := [], nextSend := s.frc + 1000000 }
  let s := sendAll others (versionRequest opVersionCommit tagCommit v) s
  if others.isEmpty then flockEnd c s else setCommit (some c) s

/-- Some device of W is not prepared: all discard, and the reply is UNIT_FAILED. -/
def flockDiscardAll (c : FlockCommit) (s : State) : State :=
  let v := flockExpect c s
  let others := c.members.filter (· != s.sys.devid)
  let s := if s.ver.wait.any fun w => w.who.isNone then endWait s else s
  let s := if stagedVer s == v then discardNow s else s
  let s := sendAll others (versionRequest opVersionDiscard tagDiscard v) s
  let s := setCommit (if others.isEmpty then none else some { c with phase := 2, expect := some v, ok := [], bad := [] }) s
  answer c.n stUnitFailed (flockWords [] c.bad) s

/-- The commit goes on once every device of W has answered its phase. -/
def flockStep (s : State) : State :=
  match s.mgmt.commit with
  | none => s
  | some c =>
    if !(flockOpen c).isEmpty then s
    else match c.phase with
      | 0 => if c.bad.isEmpty then flockCommitAll c s else flockDiscardAll c s
      | 1 => flockEnd c s
      | _ => setCommit none s

/-- A device's answer to the phase that it is for. DEDUCED, log entry 70. -/
def flockAnswer (phase d : Nat) (good : Bool) (s : State) : State :=
  match s.mgmt.commit with
  | none => s
  | some c =>
    if c.phase != phase || !(flockOpen c).contains d then s
    else flockStep (setCommit (some (if good then { c with ok := c.ok ++ [d] } else { c with bad := c.bad ++ [d] })) s)

/-- The shepherd's own part of VERSION_PREPARE (R361). -/
def flockOwnPrepare (c : FlockCommit) (s : State) : State :=
  if stagedVer s != flockExpect c s || s.ver.prepared.isSome then flockAnswer 0 s.sys.devid false s
  else if commitReady s then flockAnswer 0 s.sys.devid true (prepareNow s)
  else startWait none true s.frc s

/-- A flock-wide commit starts: W is the shepherd and every MEMBER at its acceptance. -/
def flockStart (h : Held) (s : State) : State :=
  let c : FlockCommit :=
    ⟨h.n, 0, expectOf h.req.pkt, s.sys.devid :: h.members, [], [], commitDeadline s.frc s + relayWait s, 0⟩
  let c := { c with expect := some (flockExpect c s) }
  let s := sendAll h.members (versionRequest opVersionPrepare tagPrepare (flockExpect c s)) (setCommit (some c) s)
  flockOwnPrepare c s

/-- FLOCK_PREPARE_TIMEOUT: the devices that have not answered count as failed. -/
def flockPrepareTimeoutDo (s : State) : State :=
  match s.mgmt.commit with
  | some c =>
    if c.phase == 0 && c.deadline ≤ s.frc then flockStep (setCommit (some { c with bad := c.bad ++ flockOpen c }) s) else s
  | none => s

/-- FLOCK_COMMIT_RESEND: VERSION_COMMIT goes again to those that have not replied; one that has left MEMBER has failed. -/
def flockResendDo (s : State) : State :=
  match s.mgmt.commit with
  | some c =>
    if c.phase != 1 || s.frc < c.nextSend then s
    else
      let gone := (flockOpen c).filter fun d => memberState d s != 2
      let c := { c with bad := c.bad ++ gone, nextSend := s.frc + 1000000 }
      let s := sendAll (flockOpen c) (versionRequest opVersionCommit tagCommit (flockExpect c s)) s
      flockStep (setCommit (some c) s)
  | none => s

/-! ## Version waits (R161, R361) -/

/-- What a BCAST command's own part has given is kept, and the replies go once all are in. -/
def bcastReady (b : Bcast) (s : State) : State :=
  match b.own with
  | none => s
  | some own =>
    if s.mgmt.relays.any fun r => r.n == b.n then s
    else
      let got := (sortBy (·.1) b.got).map (·.2)
      let all := own :: got
      let status := if all.all fun r => r.status == stOk then stOk
        else if all.any fun r => r.status == stOk then stPartial
        else own.status
      let s := { s with mgmt := { s.mgmt with bcasts := s.mgmt.bcasts.filter (·.n != b.n) } }
      crookPump (sendHeld b.n status all s)

/-- The BCAST entry of a held command, changed; the replies go once all are in. -/
def bcastChange (n : Nat) (f : Bcast → Bcast) (s : State) : State :=
  match s.mgmt.bcasts.find? (·.n == n) with
  | none => s
  | some b =>
    let b := f b
    bcastReady b { s with mgmt := { s.mgmt with bcasts := s.mgmt.bcasts.map fun x => if x.n == n then b else x } }

/-- A held command that this device has executed answers: by its reply, or as the shepherd's own part of a BCAST (R355). -/
def settleOwn (n status : Nat) (params : List Word) (s : State) : State :=
  if s.mgmt.bcasts.any (·.n == n) then
    match heldOf n s with
    | none => s
    | some h =>
      let (r, s) := replyPacket h.req.pkt status params s
      bcastChange n (fun b => { b with own := some (r.setH 159 150 s.sys.devid) }) s
  else answer n status params s

/-- The UNIT_RESETs whose reset is complete reply (R326). -/
def settleResets (s : State) : State :=
  ((resetsHeld s).filter fun h => !resetRuns h.req.pkt s).foldl (fun s h => settleOwn h.n stOk [] s) s

/-- VERSION_COMMIT_RESUME: the condition of R161 holds for the commit that waits. -/
def commitResumeDo (s : State) : State :=
  match s.ver.wait with
  | some { who := some n, prepare := false, .. } =>
    if commitReady s then
      let r := commitAnswer (endWait s)
      settleOwn n r.1.1 r.1.2 r.2
    else s
  | _ => s

/-- VERSION_COMMIT_TIMEOUT: COMMIT_TIMEOUT has passed since the commit was accepted. It replies BUSY only where the condition
does not hold; where it does, the commit goes on. -/
def commitTimeoutDo (s : State) : State :=
  match s.ver.wait with
  | some { who := some n, prepare := false, deadline } =>
    if s.frc < deadline then s
    else if commitReady s then commitResumeDo s
    else settleOwn n stBusy [] ((endWait s).inc F.versionStatus_BUSY 0)
  | _ => s

/-- A prepare that waited ends: a held command answers, or the shepherd's part of a flock-wide commit. -/
def prepareEnd (who : Option Nat) (good : Bool) (s : State) : State :=
  match who with
  | some n => settleOwn n (if good then stOk else stBusy) [] s
  | none => flockAnswer 0 s.sys.devid good s

/-- VERSION_PREPARE_RESUME. -/
def prepareResumeDo (s : State) : State :=
  match s.ver.wait with
  | some { who, prepare := true, .. } => if commitReady s then prepareEnd who true (prepareNow (endWait s)) else s
  | _ => s

/-- VERSION_PREPARE_TIMEOUT: BUSY only where the condition does not hold (R161, R361). -/
def prepareTimeoutDo (s : State) : State :=
  match s.ver.wait with
  | some { who, prepare := true, deadline } =>
    if s.frc < deadline then s
    else if commitReady s then prepareResumeDo s
    else prepareEnd who false (endWait s)
  | _ => s

/-! ## Relay (R354, R355) -/

/-- The opcodes that are relayed to a QUARANTINED or LOST device. -/
def relayedThere (op : Nat) : Bool :=
  [opNop, opGetInfo, opRead, opRecorderRead, opFaultAck, opIdentChallenge, opAdmit].contains op

/-- A packet goes on to a device for a held command. -/
def relayOne (n d : Nat) (p : Packet) (s : State) : State :=
  let q := relayedTo d p
  let s := { s with mgmt := { s.mgmt with relays := s.mgmt.relays ++ [⟨n, d, q, s.frc + relayWait s⟩] } }
  sendRoute d q s

/-- A request for another device: refused by its MEMBER STATE, or relayed. -/
def bodyRelay : Body := fun h l s =>
  let p := h.req.pkt
  match memberState p.dst s with
  | 0 => (some (stNotFound, []), s)
  | 3 | 4 => if relayedThere p.opcode then go h.n p l s else (some (stQuarantined, []), s)
  | _ => go h.n p l s
where
  go (n : Nat) (p : Packet) (l : Option Nat) (s : State) : Option Answer × State :=
    if l.isSome then (some (stMachineCheck, []), s) else (none, relayOne n p.dst p s)

/-- The relays without one. -/
def dropRelay (r : Relay) (s : State) : State :=
  { s with mgmt := { s.mgmt with relays := s.mgmt.relays.erase r } }

/-- A relay ends with the packet that answers it: RELAYED is cleared, and it goes to the originating channel. -/
def relayEnd (r : Relay) (p : Packet) (s : State) : State :=
  let p := p.setFlag 9 false
  let s := dropRelay r s
  if s.mgmt.bcasts.any (·.n == r.n) then bcastChange r.n (fun b => { b with got := b.got ++ [(r.dst, p)] }) s
  else crookPump (sendHeld r.n p.status [p] s)

/-- RELAY_REPLY_TIMEOUT of relay k. DEDUCED, log entry 68. -/
def relayTimeoutDo (k : Nat) (s : State) : State :=
  match s.mgmt.relays[k]? with
  | none => s
  | some r =>
    if s.frc < r.deadline then s
    else
      let (p, s) := replyPacket (r.pkt.setFlag 9 false) stTimeout [] s
      relayEnd r p s

/-- A BCAST command's relays to every device that was a MEMBER at its acceptance; its own part follows. -/
def bcastStart (h : Held) (s : State) : State :=
  let s := { s with mgmt := { s.mgmt with bcasts := s.mgmt.bcasts ++ [⟨h.n, none, []⟩] } }
  h.members.foldl (fun s d => relayOne h.n d h.req.pkt s) s

/-! ## Admission (R357, R358) -/

/-- A change of a device's STATE. -/
def setMemberState (d st : Nat) (s : State) : State := s.put F.memberDev_STATE d st

/-- An operation for a device begins or ends. -/
def setOp (d : Nat) (op : Option MemOp) (s : State) : State := s.setMemberSt d { s.memberSt d with op }

/-- P0 of an ADMIT (R358). -/
def admitWord (mode cause shep d : Nat) : Word :=
  BitVec.ofNat 64 (mode * 2 ^ 62 + cause * 2 ^ 28 + shep % 1024 * 2 ^ 16 + d % 1024)

/-- The ASEQ that the shepherd uses next for a device, its bits 62:0. -/
def nextAseq (d : Nat) (s : State) : Nat := max (s.memberSt d).winS (s.memberSt d).lastSeq + 1

/-- An ADMIT goes to a device, with a trailer in window S under its last BOOT_NONCE; without a secret it has none. -/
def sendAdmit (d mode cause : Nat) (who : Option Nat) (join : Bool) (s : State) : State :=
  let ps := [admitWord mode cause s.sys.devid d]
  let a := nextAseq d s
  let m := s.memberSt d
  let op := some (MemOp.admission mode cause who join (s.frc + relayWait s))
  let s := s.setMemberSt d { m with op, lastSeq := if s.crook.secret.isSome then a else m.lastSeq }
  match s.crook.secret with
  | none => sendRoute d (request2 opAdmit fRelayed tagAdmit d 0 0 0 ps) s
  | some k =>
    let p := request2 opAdmit fSigned tagAdmit d 0 0 0 ps
    let nonce := BitVec.ofNat 64 (s.get F.memberDev_BOOT_NONCE d)
    sendRoute d { p with trailer := some (trailerFor k nonce p (2 ^ 63 + a % 2 ^ 63)) } s

/-- A device is quarantined for a cause: ADMIT MODE 01 goes to it, and EV_FLOCK_QUARANTINE is written. -/
def quarantineDev (d cause : Nat) (who : Option Nat) (s : State) : State :=
  let s := setMemberState d 3 (s.put F.memberDev_CAUSE d cause)
  recPlain 0x51 d cause (sendAdmit d 1 cause who false s)

/-- VALID manifest entries. -/
def manifestCount (s : State) : Nat := ((s.listed .manifest).filter fun d => s.on F.manifest_VALID d).length

/-- The write of DEVICES on a device that has joined (R358). -/
def devicesRequest (d : Nat) (s : State) : Packet :=
  let v := fldSet 0 F.flockCfg_DEVICES (manifestCount s)
  request2 opWriteMasked fRelayed tagDevices d 0 (oid .flockCfg 0) 1
    (toWords .flockCfg v ++ toWords .flockCfg (fldMask F.flockCfg_DEVICES))

/-- A device enters MEMBER. -/
def enterMember (d : Nat) (s : State) : State :=
  let s := (setMemberState d 2 (s.put F.memberDev_CAUSE d 0)).inc F.memberDev_JOINS d
  let s := recPlain 0x50 d (s.get F.route_OCTET d) s
  sendRoute d (devicesRequest d s) s

/-- An ADMIT is answered, or (none) is not. DEDUCED, log entry 69. -/
def admitEnd (d : Nat) (status : Option Nat) (s : State) : State :=
  match (s.memberSt d).op with
  | some (.admission mode _ who join _) =>
    let s := setOp d none s
    let s := match who with
      | some n => answer n (status.getD stTimeout) [] s
      | none => s
    match status with
    | some st =>
      if mode == 0 && st == stDenied then quarantineDev d 5 none s
      else if join && memberState d s != 2 then enterMember d s
      else s
    | none => s
  | _ => s

/-- What ADMIT does on the device that executes it, where that is a worker (R358; SHEPHERD_ID and CTRL_OCTET are those of the
last accepted ADMIT, Table FM-2). DEDUCED, log entry 69. -/
def admitWorker (ch : Channel) (p : Packet) (s : State) : Answer × State :=
  if admitDev p != s.sys.devid then ((stBadParam, []), s)
  else
    let octet := match ch with
      | .flock o => o
      | _ => s.get F.identStatus_CTRL_OCTET 0
    let s' := s.puts 0 [(F.identStatus_SHEPHERD_ID, admitShepherd p), (F.identStatus_CTRL_OCTET, octet)]
    if admitMode p == 0 then ((stOk, []), s'.puts 0 [(F.identStatus_STATE, 1), (F.identStatus_CAUSE, 0)])
    else if admitMode p == 1 then
      ((stOk, []), s'.puts 0 [(F.identStatus_STATE, 2), (F.identStatus_CAUSE, admitCause p)])
    else ((stBadParam, []), s)

/-- What ADMIT does on the shepherd: it waits for the device's answer. DEDUCED, log entry 69. -/
def admitShepherdDo (n : Nat) (p : Packet) (s : State) : Option Answer × State :=
  let d := admitDev p
  if admitMode p == 3 || d == s.sys.devid then (some (stBadParam, []), s)
  else if memberState d s == 0 then (some (stNotFound, []), s)
  else if admitMode p == 0 then
    let s := s.puts d [(F.manifest_SERIAL, s.get F.memberDev_OBS_SERIAL d), (F.manifest_KEY_FP, s.get F.memberDev_OBS_FP d),
      (F.manifest_VALID, 1)]
    let s := if s.get F.memberDev_CAUSE d == 6 then s.put F.memberDev_CAUSE d 0 else s
    (none, recPlain 0x52 d 0 (sendAdmit d 0 0 (some n) false s))
  else if admitMode p == 1 then (none, quarantineDev d 6 (some n) s)
  else (none, setMemberState d 0 ((sendAdmit d 1 6 (some n) false s).put F.memberDev_CAUSE d 0))

/-- ADMIT (R358); a lone device has no flock to join. -/
def bodyAdmit : Body := fun h l s =>
  match s.get F.roleCfg_ROLE 0 with
  | 1 => onePart l s (admitWorker h.req.chan h.req.pkt s)
  | 2 => if l.isSome then (some (stMachineCheck, []), s) else admitShepherdDo h.n h.req.pkt s
  | _ => (some (stBadParam, []), s)

/-! ## Challenges (R357) -/

/-- A check of a device starts: the challenge of a fresh nonce goes to it. -/
def startChallenge (d : Nat) (s : State) : State :=
  let st := memberState d s
  let s := if st == 2 || st == 3 then s else setMemberState d 1 s
  let k := s.mgmt.nonces
  let s := { s with mgmt := { s.mgmt with nonces := k + 1 } }
  let s := s.setMemberSt d { s.memberSt d with op := some (.challenge k (s.frc + relayWait s)), started := s.frc }
  sendRoute d (request2 opIdentChallenge fRelayed tagChallenge d 0 0 0 ((List.range 4).map (Config.nonce k))) s

/-- A check of a device is due: at once for ABSENT and JOINING, every 1 s for LOST and QUARANTINED, every RECHECK_S for
MEMBER. -/
def checkDue (d : Nat) (s : State) : Bool :=
  let since (ns : Nat) : Bool := (s.memberSt d).started + ns ≤ s.frc
  match memberState d s with
  | 0 | 1 => true
  | 2 => s.get F.roleCfg_RECHECK_S 0 != 0 && since (s.get F.roleCfg_RECHECK_S 0 * 10 ^ 9)
  | _ => since (10 ^ 9)

/-- The shepherd challenges: it is ready, the first COMMIT of unit IDENT since reset has been accepted (R357). -/
def challenges (s : State) : Bool := shepherd s && s.mgmt.committed && s.sys.phase == 4

/-- SHEPHERD_CHALLENGE of a device with a VALID route. -/
def shepherdChallengeDo (d : Nat) (s : State) : State :=
  if challenges s && d != s.sys.devid && (routeOf d s).isSome && (s.memberSt d).op.isNone && checkDue d s then
    startChallenge d s
  else s

/-- The key, the fingerprint and the verdict of a challenge reply. -/
def replyKey (ws : List Word) : BitVec 392 :=
  BitVec.ofNat 392 (((ws.drop 4).take 7).foldl (fun x w => x * 2 ^ 64 + w.toNat) 0)

def replySerial (ws : List Word) : Nat := (ws.getD 0 0).toNat * 2 ^ 64 + (ws.getD 1 0).toNat

def fingerprint (key : BitVec 392) : Nat := bytesNat ((sha384 (natBytes 49 key.toNat)).take 16)

/-- The signature of a reply to challenge k verifies. -/
def replySigned (k : Nat) (ws : List Word) : Bool :=
  let nonce := (List.range 4).map (Config.nonce k)
  Config.verify (replyKey ws)
    (challengeBytes nonce (BitVec.ofNat 128 (replySerial ws)) (ws.getD 2 0) ((ws.getD 3 0).toNat % 1024) (replyKey ws))
    ((ws.drop 11).take 12)

/-- The cause that a reply to challenge k gives (Table FM-5); a quarantine set by host software stays. -/
def replyCause (d k : Nat) (ws : List Word) (s : State) : Nat :=
  if !replySigned k ws then 4
  else if !s.on F.manifest_VALID d then 1
  else if replySerial ws != s.get F.manifest_SERIAL d then 2
  else if fingerprint (replyKey ws) != s.get F.manifest_KEY_FP d then 3
  else if memberState d s == 3 && s.get F.memberDev_CAUSE d == 6 then 6
  else 0

/-- CHALLENGE_REPLY of a device: the pseudocode of R357 from the reply on. -/
def challengeReplyDo (d : Nat) (ws : List Word) (s : State) : State :=
  match (s.memberSt d).op with
  | some (.challenge k _) =>
    let cause := replyCause d k ws s
    let boot := (ws.getD 2 0).toNat
    let changed := boot != s.get F.memberDev_BOOT_NONCE d
    let s := s.puts d [(F.memberDev_OBS_SERIAL, replySerial ws), (F.memberDev_OBS_FP, fingerprint (replyKey ws))]
    let s := if replySigned k ws then s.put F.memberDev_BOOT_NONCE d boot else s
    let winS := if replySigned k ws then (ws.getD 23 0).toNat % 2 ^ 63 else (s.memberSt d).winS
    let s := s.setMemberSt d { s.memberSt d with op := none, misses := 0, winS }
    if cause != 0 then quarantineDev d cause none s
    else if memberState d s != 2 || changed then sendAdmit d 0 0 none true s
    else s
  | _ => s

/-- A check is tried again, where the shepherd still challenges and the device still has a VALID route. -/
def retryChallenge (d : Nat) (s : State) : State :=
  whenever (challenges s && (routeOf d s).isSome) (startChallenge d) s

/-- A challenge without an answer: the third miss of a MEMBER in a row makes it LOST, else the check is tried again. -/
def challengeMiss (d : Nat) (s : State) : State :=
  let m := s.memberSt d
  let s := s.setMemberSt d { m with op := none, misses := m.misses + 1 }
  if memberState d s == 2 && 3 ≤ m.misses + 1 then
    (setMemberState d 4 s).setMemberSt d { s.memberSt d with misses := 0 }
  else retryChallenge d s

/-- CHALLENGE_TIMEOUT of a device: RELAY_TIMEOUT has passed on the challenge, or on the ADMIT, that is in flight for it. -/
def challengeTimeoutDo (d : Nat) (s : State) : State :=
  match (s.memberSt d).op with
  | some (.challenge _ t) => if t ≤ s.frc then challengeMiss d s else s
  | some (.admission _ _ _ join t) =>
    if t ≤ s.frc then
      let s := admitEnd d none s
      if join then retryChallenge d s else s
    else s
  | none => s

/-! ## Collection (R359, R360) -/

/-- A notice from the words of a COLLECT write of index 0. -/
def noticeOf (ws : List Word) : Notice :=
  let w (i : Nat) : Nat := (ws.getD i 0).toNat
  ⟨w 0 / 2 ^ 32, bits (w 0) 31 28 * 2 ^ 28, bits (w 0) 27 26, bits (w 0) 25 12, bits (w 0) 10 0, bits (w 1) 63 60,
    w 1 % 2 ^ 48, (bits (w 2) 63 16 * 10 ^ 9 + w 3 / 2 ^ 32) * 65536, bits (w 3) 31 10, w 3 % 1024⟩

/-- A COLLECT write on the shepherd. -/
def collectRun (p : Packet) (s : State) : Answer × State :=
  if memberState p.orig s != 2 then ((stDenied, []), s)
  else if p.obj % 2 ^ 32 == 0 then
    if s.tab.notices.length < 4096 then
      ((stOk, []), { s with tab := { s.tab with notices := s.tab.notices ++ [noticeOf (p.params.drop 1)] } })
    else ((stNoSpace, []), s)
  else
    let off := pw p 0 % 2 ^ 32
    let ws := p.params.drop 1
    let room := s.get F.roleCfg_MUSTER_PAGES 0 * 4096
    if room < (off + ws.length) * 8 then ((stNoSpace, []), s)
    else ((stOk, []), dmaWords (s.get F.roleCfg_MUSTER_ADDR 0 + p.orig * room + off * 8) ws s)

def bodyCollect : Body := fun h l s => onePart l s (collectRun h.req.pkt s)

/-- STRAY_NOTICE_DELIVER (R141): the oldest notice goes to its ring, or to the shepherd, one at a time. With DEST 10 (count
only) the notices queued before that COMMIT go on waiting. DESIGN CHOICE, log entry 121. -/
def noticeDeliverDo (s : State) : State :=
  match s.tab.notices with
  | [] => s
  | n :: rest =>
    match s.get F.learnCfg_DEST 0 with
    | 0 => noticeToRing n rest s
    | 1 =>
      if s.mgmt.notice.isSome then s
      else
        let s := { s with tab := { s.tab with notices := rest } }
        if s.get F.roleCfg_ROLE 0 != 1 then noticeLost n s
        else
          let p := collectRequest tagNotice 0 (0 :: n.words) s
          sendRoute (shepherdId s) p { s with mgmt := { s.mgmt with notice := some (n, s.frc + relayWait s) } }
    | _ => s

/-- The stray sent upstream is answered, or is not. -/
def noticeEnd (good : Bool) (s : State) : State :=
  match s.mgmt.notice with
  | none => s
  | some (n, _) =>
    let s := { s with mgmt := { s.mgmt with notice := none } }
    if good then s else noticeLost n s

/-- COLLECT_REPLY_TIMEOUT: the answer of a stray is overdue, else that of a muster chunk. -/
def collectTimeoutDo (s : State) : State :=
  if s.mgmt.notice.any fun x => x.2 ≤ s.frc then noticeEnd false s
  else if chunkOverdue s then chunkFailed s
  else s

/-! ## Control pipes (R353) -/

/-- A reply that answers a request of this worker for its shepherd; none where it answers none. -/
def upstreamReply (p : Packet) (s : State) : Option State :=
  if p.opcode != opWrite then none
  else if p.tag == tagNotice && s.mgmt.notice.isSome then some (noticeEnd (p.status == stOk) s)
  else if p.tag == tagChunk && s.muster.dump.any fun d => d.deadline.isSome then
    some (if p.status == stOk then chunkDone s else chunkFailed s)
  else none

/-- A reply that answers a request which the shepherd has relayed or originated; none where it answers none. -/
def downstreamReply (p : Packet) (s : State) : Option State :=
  let d := p.dst
  match s.mgmt.relays.find? fun r => answers p r.pkt with
  | some r => some (relayEnd r p s)
  | none =>
    let inFlight (ph : Nat) : Bool := s.mgmt.commit.any fun c => c.phase == ph && (flockOpen c).contains d
    if p.opcode == opIdentChallenge && p.tag == tagChallenge then
      match (s.memberSt d).op with
      | some (.challenge _ _) => some (if p.status == stOk then challengeReplyDo d p.params s else s)
      | _ => none
    else if p.opcode == opAdmit && p.tag == tagAdmit then
      match (s.memberSt d).op with
      | some (.admission _ _ _ _ _) => some (admitEnd d (some p.status) s)
      | _ => none
    else if p.opcode == opVersionPrepare && p.tag == tagPrepare && inFlight 0 then
      some (flockAnswer 0 d (p.status == stOk) s)
    else if p.opcode == opVersionCommit && p.tag == tagCommit && inFlight 1 then
      some (flockAnswer 1 d (p.status == stOk || p.status == stVersionConflict) s)
    else if p.opcode == opVersionDiscard && p.tag == tagDiscard && inFlight 2 then some (flockAnswer 2 d true s)
    else if p.opcode == opWriteMasked && p.tag == tagDevices then some s
    else none

/-- A packet is sent on to a route as it came (R353). -/
def forwardTo (d : Nat) (bytes : List Byte) (s : State) : State :=
  match routeOf d s with
  | some o => controlOut o bytes s
  | none => replyLost s

/-- A packet of a control pipe reaches the crook, or waits for room. -/
def pipeToCrook (o : Nat) (bytes : List Byte) (s : State) : State :=
  if heldFull s then { s with crook := { s.crook with ctrl := s.crook.ctrl ++ [(o, bytes)] } }
  else intake (.flock o) bytes s

/-- A reply for this device, where it answers a request. -/
def ownReply (o : Nat) (found : Option State) (s : State) : State := found.getD (malformed (.flock o) none s)

/-- A packet on a worker's control pipe (R353). -/
def workerPacket (o : Nat) (bytes : List Byte) (p : Packet) (s : State) : State :=
  let own := s.sys.devid
  if p.isReply then
    if p.v2 && p.upstream then (if p.orig == own then ownReply o (upstreamReply p s) s else forwardTo p.orig bytes s)
    else controlOut (s.get F.identStatus_CTRL_OCTET 0) bytes s
  else if p.v2 && p.relayed then (if p.dst == own then pipeToCrook o bytes s else forwardTo p.dst bytes s)
  else if p.v2 && p.upstream then forwardTo p.dst bytes s
  else pipeToCrook o bytes s

/-- A whole packet that a control pipe has carried (R291, R353). -/
def controlPacket (o : Nat) (bytes : List Byte) (s : State) : State :=
  if !crookUp s then s
  else match parsePacket bytes with
    | .error _ => malformed (.flock o) none s
    | .ok p =>
      if s.get F.roleCfg_ROLE 0 == 1 then workerPacket o bytes p s
      else if p.isReply then ownReply o (downstreamReply p s) s
      else pipeToCrook o bytes s

/-- A delimited frame of a control pipe: its packet, where no block of it was errored and its FCS is good (R261, R263). -/
def controlFrame (o : Nat) (bytes : List Byte) (blockErr : Bool) (s : State) : State :=
  if blockErr || !fcsGood bytes then s else controlPacket o (bytes.take (bytes.length - 4)) s

/-- CONTROL_PIPE_PACKET on an octet whose receiver hears its control slots; in a near-end loopback it is the oldest frame that
the octet has sent (R53). DESIGN CHOICE, log entry 86. -/
def controlPacketDo (o : Nat) (bytes : List Byte) (blockErr : Bool) (s : State) : State :=
  if !channelHears o 2 s then s
  else if hearsLoop (octetLanes o) s then
    match (s.link o).loopCtrl with
    | [] => s
    | b :: bs => controlFrame o b false (s.setLink o { s.link o with loopCtrl := bs })
  else if hearsLine (octetLanes o) s then controlFrame o bytes blockErr s
  else s

/-- A packet of a channel is one that the crook discards (R271 steps 1 to 4): on a control pipe, a packet that is forwarded
or answers a request is not. -/
def packetDiscardDo (ch : Channel) (bytes : List Byte) (s : State) : State :=
  if !crookUp s || !discards bytes s then s
  else match ch, parsePacket bytes with
    | .flock o, .ok _ => whenever (channelHears o 2 s) (controlPacket o bytes) s
    | .flock o, .error _ => whenever (channelHears o 2 s) (intake ch bytes) s
    | _, _ => intake ch bytes s

end Sys2Proof.Machine
end

