-- ==== Sys2Proof/Machine/Micro.lean ====
section
/-! DEFINITION. Machine/Micro.lean: the microsteps of a context: the fetch of its words with their parity, the sequencing
operations and conditions, and what a step that fails records (R308 to R312, Tables CE-3 to CE-8). -/

namespace Sys2Proof.Machine

open Sys2Proof

/-! ## The room for a reply (R284) -/

/-- Bytes of the longest reply that a command may give, a BCAST command's replies together (R284, R355, R362).
DEDUCED, log entry 62. -/
def replyRoom (h : Held) (s : State) : Nat :=
  let p := h.req.pkt
  if isFlockCommit p s then replyBytes p 17
  else if shepherd s && p.v2 && p.bcast then replyBytes p (longestWords p) * (1 + h.members.length)
  else replyBytes p (longestWords p)

/-- A command on a PCIe queue whose longest reply does not fit its buffer: the bytes it would need. DEDUCED, log entry 62. -/
def lacksRoom (h : Held) (s : State) : Option Nat :=
  match h.req.chan with
  | .pcie _ _ _ room _ => if room < replyRoom h s then some (replyRoom h s) else none
  | _ => none

/-! ## Words and their parity (Tables CE-3, CE-7) -/

/-- The bits of a number below a width, counted. -/
def parityOnes (width x : Nat) : Nat := ((List.range width).filter (bit x ·)).length

/-- PAR of a microword: its 24 bits hold an odd number of ones. -/
def microGood (w : BitVec 24) : Bool := parityOnes 24 w.toNat % 2 == 1

/-- PAR of a nanoword: bit 128 + i makes the ones of byte i odd. -/
def nanoGood (w : BitVec 144) : Bool :=
  (List.range 16).all fun i => (parityOnes 8 (w.toNat / 2 ^ (8 * i)) + b2n (bit w.toNat (128 + i))) % 2 == 1

/-- A word as fetched: the first fetch, or the second where the first fails its parity check; whether the second was needed;
none where both fail (R311). -/
def fetched {w : Nat} (good : BitVec w → Bool) (stored flip flip2 : BitVec w) : Option (BitVec w) × Bool :=
  if good (stored ^^^ flip) then (some (stored ^^^ flip), false)
  else if good (stored ^^^ flip2) then (some (stored ^^^ flip2), true)
  else (none, true)

/-- A parity error passed on the second fetch (R311). -/
def retriedOnce (ctx : Nat) (s : State) : State := raisePlain 0x10 (instOf 0x12 ctx) (s.inc F.crookStatus_RETRIED 0)

/-! ## One microstep (R309, R311) -/

/-- How a microstep ends: the context goes on, it ends (END), it takes a machine check at a microaddress on the word of a
nanoaddress where that is a nanoword, or it meets an uncorrectable word of its own. -/
inductive MicroEnd where
  | going
  | ended
  | check (uaddr : Nat) (nano : Option Nat)
  | spoiled
  deriving DecidableEq, Repr

/-- COND of Table CE-6 for a held command; x is the value that earlier nanowords have given it. -/
def condHolds (h : Held) (x : Bool) (cond : Nat) (s : State) : Bool :=
  let p := h.req.pkt
  match cond with
  | 0x0 => true
  | 0x4 => p.v2
  | 0x5 => p.fence
  | 0x6 => p.atomic
  | 0x7 => p.staged
  | 0x8 => h.req.auth == .accepted
  | 0x9 => s.get F.identStatus_STATE 0 == 2
  | 0xB => (lacksRoom h s).isNone
  | 0xD => chanCode h.req.chan == 0
  | 0xE => commitReady s
  | 0xF => commitDeadline h.frc s ≤ s.frc
  | _ => x

/-- A context at a microaddress. -/
def setUaddr (ctx a : Nat) (s : State) : State := s.setContext ctx { s.context ctx with uaddr := a }

/-- The context goes on at the address after its own, whose incrementer must not carry out. -/
def stepOn (ctx : Nat) (s : State) : MicroEnd × State :=
  let a := (s.context ctx).uaddr
  if a == 0x1FFF then (.check a none, s) else (.going, setUaddr ctx (a + 1) s)

/-- A nanoword is issued: the scratch registers that it selects as sources are read, and the one that it selects as its
destination gets a value that the manual does not state. DESIGN CHOICE, log entry 77. -/
def issueNano (ctx : Nat) (w : BitVec 144) (s : State) : Bool × State :=
  let sel (hi : Nat) : Nat := bits w.toNat hi (hi - 7)
  let (s, bad) := evalWords (instOf 0x12 ctx) ([sel 111, sel 103].filter (· < 64)) s
  if bad then (true, s)
  else if sel 95 < 64 then
    let (v, s) := s.draw
    let c := s.context ctx
    (false, s.setContext ctx { c with scratch := putD 0 c.scratch (sel 95) (v % 2 ^ 64) })
  else (false, s)

/-- NEXT, WAIT or END with their nanoword: it is fetched and issued, and then the context goes on or ends. -/
def issueStep (ctx : Nat) (x : MicroStep) (w : Nat) (s : State) : MicroEnd × State :=
  let na := bits w 16 6
  match fetched nanoGood (Config.nanoword na) x.nflip x.nflip2 with
  | (none, _) => (.check (s.context ctx).uaddr (some na), s)
  | (some n, again) =>
    let r := issueNano ctx n (whenever again (retriedOnce ctx) s)
    if r.1 then (.spoiled, r.2)
    else if bits w 22 20 == 7 then (.ended, setUaddr ctx 0 r.2)
    else stepOn ctx r.2

/-- The sequencing operations that only change the microaddress (Table CE-4). -/
def seqStep (h : Held) (ctx : Nat) (x : MicroStep) (w : Nat) (s : State) : MicroEnd × State :=
  let c := s.context ctx
  let target := w % 2 ^ 13
  match bits w 22 20 with
  | 1 => (.going, setUaddr ctx target s)
  | 2 => if condHolds h x.cond (bits w 16 13) s then (.going, setUaddr ctx target s) else stepOn ctx s
  | 3 =>
    if c.uaddr == 0x1FFF || 8 ≤ c.stack.length then (.check c.uaddr none, s)
    else (.going, s.setContext ctx { c with uaddr := target, stack := (c.uaddr + 1) :: c.stack })
  | 4 =>
    match c.stack with
    | [] => (.check c.uaddr none, s)
    | a :: rest =>
      let (s, bad) := evalWords (instOf 0x12 ctx) [64 + rest.length] s
      if bad then (.spoiled, s) else (.going, s.setContext ctx { c with uaddr := a, stack := rest })
  | _ => (.going, setUaddr ctx ((target + h.req.pkt.opcode % 256) % 2 ^ 13) s)

/-- A microstep of the context of a held command. -/
def microStep (h : Held) (ctx : Nat) (x : MicroStep) (s : State) : MicroEnd × State :=
  let a := (s.context ctx).uaddr
  match fetched microGood (Config.microword a) x.flip x.flip2 with
  | (none, _) => (.check a none, s)
  | (some w, again) =>
    let s := whenever again (retriedOnce ctx) s
    if [0, 6, 7].contains (bits w.toNat 22 20) then issueStep ctx x w.toNat s else seqStep h ctx x w.toNat s

/-- The microsteps of a context, one after another, until one does not go on. -/
def microRun (h : Held) (ctx : Nat) : List MicroStep → State → MicroEnd × State
  | [], s => (.going, s)
  | x :: xs, s =>
    match microStep h ctx x s with
    | (.going, s) => microRun h ctx xs s
    | r => r

/-! ## Machine checks (R312) -/

/-- A machine check is recorded: MC_ADDR, MC_NANO, NANO_ADDR, MC_OPCODE, MC_COUNT, FS_CROOK_MC and EV_CROOK_MC. -/
def recordCheck (p : Packet) (ctx uaddr : Nat) (nano : Option Nat) (s : State) : State :=
  let op := p.opcode % 256
  let n := b2n nano.isSome
  let na := nano.getD 0
  let s := (s.puts 0 [(F.crookStatus_MC_ADDR, uaddr), (F.crookStatus_MC_NANO, n), (F.crookStatus_NANO_ADDR, na),
    (F.crookStatus_MC_OPCODE, op)]).inc F.crookStatus_MC_COUNT 0
  raise 0x11 (instOf 0x12 ctx) none .plain (some (0x14, uaddr * 2 ^ 16 + n * 2 ^ 15 + op, na)) s

/-- What the end of a run records, and the status with which it stops the command: none where it does not. -/
def microStops (p : Packet) (ctx : Nat) (e : MicroEnd) (s : State) : Option Nat × State :=
  match e with
  | .going | .ended => (none, s)
  | .check a nano => (some stMachineCheck, recordCheck p ctx a nano s)
  | .spoiled => (some stAborted, s)

end Sys2Proof.Machine
end

