-- ==== Sys2Proof/Machine/Run.lean ====
section
/-! DEFINITION. Machine/Run.lean: how a command of a packet starts, what refuses it, and how it ends: the order of checks of
R271, the fences of R274, and machine checks (R270 to R276, R284, R308 to R313, R329, R351, R369). -/

namespace Sys2Proof.Machine

open Sys2Proof

/-! ## What refuses a command (R271 steps 4 to 7) -/

/-- A trailer that was replayed, or that is missing where it is needed (R281, R282): for a device beyond the shepherd, that
device checks the trailer. DEDUCED, log entry 76. -/
def denied (h : Held) (s : State) : Bool :=
  let p := h.req.pkt
  let inband := chanCode h.req.chan == 1
  if elsewhere p s then inband && !p.signed
  else
    h.req.auth == .replayed ||
      (h.req.auth != .accepted &&
        (inband || (opAuth p.opcode && !(p.opcode == opCustodySet && s.crook.secret.isNone)))) ||
      (shepherd s && p.v2 && p.bcast && !p.signed && opAuth p.opcode) ||
      (shepherd s && p.v2 && p.upstream && !isCollect p)

/-- The packet breaks R270, R355 or step 6 of R271. -/
def badParam (h : Held) (s : State) : Bool :=
  let p := h.req.pkt
  p.reservedSet || p.status != 0 || (p.v2 && !p.upstream && p.orig != 0) || (p.v2 && p.bcast && p.signed) ||
    (!elsewhere p s &&
      ((h.req.auth == .accepted && p.trailerReserved != 0) || (p.v2 && !shepherd s && p.dst != s.sys.devid) ||
        !paramsOk h.req.chan p s))

/-- The opcodes that a device in quarantine executes (R351, Table FM-5). DEDUCED, log entry 78. -/
def quarantineAllows (op : Nat) : Bool :=
  [opNop, opGetInfo, opRead, opRecorderRead, opFaultAck, opIdentChallenge, opAdmit].contains op

/-- The opcodes that the crook executes before ready (R369). -/
def startAllows (op : Nat) (s : State) : Bool :=
  [opNop, opGetInfo, opRead, opReadDma, opFaultAck, opIdentChallenge, opDeviceReset].contains op ||
    (op == opRecorderRead && s.sys.logReady)

/-- The opcodes that the crook executes after a fatal fault (R329). -/
def fatalAllows (op : Nat) : Bool :=
  [opRead, opReadDma, opGetInfo, opRecorderRead, opFaultAck, opDeviceReset].contains op

/-- The crook replies BUSY to an opcode. -/
def busyFor (op : Nat) (s : State) : Bool :=
  if s.flt.fatal then !fatalAllows op else s.sys.phase < 4 && !startAllows op s

/-- The status with which a command is refused; none where it may execute. -/
def verdict (h : Held) (s : State) : Option Nat :=
  let op := h.req.pkt.opcode
  if denied h s then some stDenied
  else if badParam h s then some stBadParam
  else if s.get F.identStatus_STATE 0 == 2 && !quarantineAllows op then some stQuarantined
  else if busyFor op s then some stBusy
  else none

/-- A held command is refused before it executes: by the checks of R271, by R284, or by its fence. -/
def refusedFirst (h : Held) (s : State) : Bool := (verdict h s).isSome || (lacksRoom h s).isSome || fenceBroken h s

/-- A held command may start: its stream lets it, and the table-content rules hold back only a command that would execute
(R161, R361). DEDUCED, log entry 103. -/
def mayStart' (h : Held) (s : State) : Bool := streamLets h s && (refusedFirst h s || !contentHeld h s)

/-! ## What a COMMIT that waits finds (R10) -/

/-- The staged objects that differ between two states. -/
def stagedChanges (old new : State) : List (Nat × ObjVal) :=
  (dedup ((old.staged ++ new.staged).map (·.1))).filterMap fun o => match decodeOid o with
    | some (c, i) => if old.stagedObj c i == new.stagedObj c i then none else some (o, old.stagedObj c i)
    | none => none
where
  dedup : List Nat → List Nat
    | [] => []
    | x :: xs => if xs.contains x then dedup xs else x :: dedup xs

/-- A staged object that a command of number m has changed, for one that a waiting COMMIT of number n names: an older
command's value counts at the acceptance of the COMMIT, a younger one's does not. -/
def lateEntry (m n : Nat) (new : State) (late : List (Nat × ObjVal)) (e : Nat × ObjVal) : List (Nat × ObjVal) :=
  if late.any (·.1 == e.1) then
    if m < n then late.map fun x => if x.1 == e.1 then match decodeOid e.1 with
      | some (c, i) => (e.1, new.stagedObj c i)
      | none => x
      else x
    else late
  else if n < m then late ++ [e]
  else late

/-- Command m has run from old to new: the COMMITs that wait keep the staged values that their acceptance gives them. -/
def trackLate (m : Nat) (old new : State) : State :=
  match stagedChanges old new with
  | [] => new
  | es =>
    setHeld (new.crook.held.map fun h =>
      if h.req.pkt.opcode == opCommit && h.ctx.isNone then
        let us := ((unitsOf' h.req.pkt).map (·.1)).getD []
        { h with late := (es.filter fun e => us.contains (oidUnit e.1)).foldl (lateEntry m h.n new) h.late }
      else h) new

/-! ## Execution -/

/-- What a command does once nothing refuses it: a relay, a flock-wide commit, or its own effect, of which a limit leaves so
many parts (R312). -/
def ownEffect (body : Body) (h : Held) (limit : Option Nat) (s : State) : Option Answer × State :=
  let p := h.req.pkt
  if elsewhere p s then bodyRelay h limit s
  else if isFlockCommit p s then (if limit.isSome then (some (stMachineCheck, []), s) else (none, flockStart h s))
  else if shepherd s && p.v2 && p.bcast then body h limit (bcastStart h s)
  else body h limit s

/-- A command ends with an answer, or goes on. -/
def settle (n : Nat) (old : State) (r : Option Answer × State) : State :=
  let s := trackLate n old r.2
  match r.1 with
  | some a => settleOwn n a.1 a.2 s
  | none => s

/-- The apply phase of R279, whose machine checks restart it (R313). -/
def restarts (p : Packet) : Bool :=
  p.atomic && (((opCommit == p.opcode || opDiscard == p.opcode) && oidUnit p.obj == 0) || opWriteList == p.opcode)

/-- The units of an ATOMIC command that stopped after some parts: those applied, and the others with MACHINE_CHECK.
DESIGN CHOICE, log entry 77. -/
def stoppedWords (p : Packet) (parts : Nat) : List Word :=
  let us := if p.opcode == opWriteList then writeUnits ((listWrites p).getD []) else ((unitsOf' p).map (·.1)).getD []
  let good := us.take parts
  multiWords good (us.map fun u => (u, if good.contains u then stOk else stMachineCheck))

/-- A command that its microsteps stop after some of its parts, those made staying applied. -/
def partly (body : Body) (h : Held) (parts : Nat) (s : State) : State := abandon h.n (ownEffect body h (some parts) s).2

/-- A machine check in the apply phase of an ATOMIC command, k parts made, restarts the phase once (R313). -/
def restarted (body : Body) (h : Held) (ctx k : Nat) (f : Fetch) (s : State) : Option Answer × State :=
  let p := h.req.pkt
  let r := microRun h ctx f.again (setUaddr ctx (Config.applyAddr p.opcode).toNat s)
  match microStops p ctx r.1 r.2 with
  | (none, s) => ownEffect body h none s
  | (some st, s) =>
    let made := max k f.partsAgain
    (some (st, if st == stMachineCheck then stoppedWords p made else []), partly body h made s)

/-- The check phase of an ATOMIC command fails, so that it has no apply phase (R279). -/
def checkFails (body : Body) (h : Held) (s : State) : Bool :=
  (ownEffect body h none s).1.any fun a => a.1 == stUnitFailed

/-- A command that its microsteps stop with a status before its apply phase, or in it (R312, R313). -/
def stopped (body : Body) (h : Held) (ctx st : Nat) (refused : Bool) (f : Fetch) (s : State) : Option Answer × State :=
  match f.parts with
  | none => (some (st, []), s)
  | some k =>
    if refused then (some (st, []), s)
    else if !restarts h.req.pkt then (some (st, []), partly body h k s)
    else if checkFails body h s then (some (st, []), s)
    else if st == stMachineCheck then restarted body h ctx k f s
    else (some (st, []), partly body h k s)

/-- UNIT_RESET of CROOK on this device: it acts on the other contexts after its own reply (R326, Table FA-7). -/
def resetsCrook (p : Packet) (s : State) : Bool :=
  p.opcode == opUnitReset && oidUnit p.obj == 0x12 && !elsewhere p s

/-- A command that has started in a context and that its microsteps do not stop. -/
def runOn (body : Body) (h : Held) (broken : Bool) (s : State) : State :=
  match verdict h s, lacksRoom h s with
  | some st, _ => answer h.n st [] s
  | none, some bytes => crookPump (completeHeld h.n stNoSpace bytes s)
  | none, none =>
    if broken then answer h.n stFenceBroken [] s
    else
      let t := settle h.n s (ownEffect body h none s)
      if resetsCrook h.req.pkt s then crookReset (some h.n) t else t

/-- A command that has started in a context: its microsteps, and what it does unless they stop it. -/
def runStarted (body : Body) (h : Held) (ctx : Nat) (broken : Bool) (f : Fetch) (s : State) : State :=
  let r := microRun h ctx f.steps s
  match microStops h.req.pkt ctx r.1 r.2 with
  | (none, s) => runOn body h broken (if f.steps.isEmpty then waitsAt ctx h.req.pkt.opcode s else s)
  | (some st, s) => settle h.n s (stopped body h ctx st ((verdict h s).isSome || (lacksRoom h s).isSome || broken) f s)

/-- A command that waits in its context takes further microsteps, which may stop it (R312). -/
def runWaiting (h : Held) (ctx : Nat) (f : Fetch) (s : State) : State :=
  let r := microRun h ctx f.steps s
  match microStops h.req.pkt ctx r.1 r.2 with
  | (none, s) => s
  | (some st, s) => answer h.n st [] (abandon h.n s)

/-- An ADMIT that the shepherd executes waits while an operation for its device is in flight (R357). -/
def admitWaits (p : Packet) (s : State) : Bool :=
  p.opcode == opAdmit && shepherd s && !elsewhere p s && ((s.memberSt (admitDev p)).op.isSome)

/-- A held command starts in the lowest free context, where the order of its stream lets it (R273 to R275, R308).
DEDUCED, log entry 90. -/
def startHeld (body : Body) (h : Held) (f : Fetch) (s : State) : State :=
  match freeContext s with
  | none => s
  | some ctx =>
    if mayStart' h s && !admitWaits h.req.pkt s then
      runStarted body { h with ctx := some ctx } ctx (fenceBroken h s) f (startIn h.n ctx (fencePassed h s))
    else s

/-- The held command that has not started and came by the channel with the packet. DEDUCED, log entry 90. -/
def waiting (r : Request) (s : State) : Option Held :=
  s.crook.held.find? fun h => h.ctx.isNone && h.req.chan == r.chan && h.req.pkt == r.pkt

/-- The held command that came by the channel with the packet and waits in a context. -/
def inContext (r : Request) (s : State) : Option (Held × Nat) :=
  s.crook.held.findSome? fun h => match h.ctx with
    | some i => if h.req.chan == r.chan && h.req.pkt == r.pkt then some (h, i) else none
    | none => none

/-- The packet of a request is one of a command row: opcode, and what tells the rows of one opcode apart. -/
def isRow (op : Nat) (p : Packet) (s : State) : Bool :=
  p.opcode == op && !p.isReply && !isCollect p && !isFlockCommit p s

/-- A packet that is not held is taken in, while the crook holds fewer than 256, and its command starts. -/
def takeAndStart (body : Body) (r : Request) (f : Fetch) (s : State) : State :=
  if heldFull s then s
  else
    let s := takeIn r.chan r.pkt s
    match waiting r s with
    | some h => startHeld body h f s
    | none => s

/-- A command row: the held command of its packet starts; one that waits in its context takes the microsteps that the row
follows; a packet that is not held yet is taken in first. -/
def runRow (fits : Bool) (body : Body) (r : Request) (f : Fetch) (s : State) : State :=
  if !fits || !crookUp s then s
  else match waiting r s with
    | some h => startHeld body h f s
    | none =>
      if f.steps.isEmpty then takeAndStart body r f s
      else match inContext r s with
        | some (h, ctx) => runWaiting h ctx f s
        | none => takeAndStart body r f s

end Sys2Proof.Machine
end

