-- ==== Sys2Proof/Machine/Startup.lean ====
section
/-! DEFINITION. Machine/Startup.lean: RESET_N, PERST_N, the steps of start-up, the supplies, the ROM check, and what host software
reads in BAR0 (R296, R314, R347, R364 to R370, R376, R377, R390). -/

namespace Sys2Proof.Machine

open Sys2Proof

/-! ## Reset (R365, R367, R377) -/

/-- An entry of the kept store: closed, and to be programmed again where flash does not hold its present form (R334). -/
def keptEntry (e : LogEntry) : LogEntry :=
  let e := e.cut.close
  { e with waiting := e.waiting || e.prog != some e.r.rep }

/-- The recorder as a reset leaves it: the on-chip store stays, held records are lost. DEDUCED, log entry 81. -/
def resetLog (l : RecSt) : RecSt :=
  { logReset with
    recs := if l.kept then l.recs.map keptEntry else []
    logId := l.logId
    firstSeq := l.firstSeq
    lastSeq := l.lastSeq
    full := l.full
    kept := l.kept }

/-- RESET_N_ASSERT: transmitters idle, BELLWETHER low, FAULT_N released, the link down, no command accepted; frames and
commands inside the device are lost. DESIGN CHOICE, log entry 14. DEDUCED, log entry 98. -/
def resetAssertDo (s : State) : State :=
  if s.sys.inReset then s
  else
    let s := s.puts 0 [(F.hostStatus_LINK_GEN, 0), (F.hostStatus_LINK_WIDTH, 0)]
    let crook := { crookStReset with secret := s.crook.secret, writesLeft := s.crook.writesLeft }
    let s := cutProgram s
    let sys := { s.sys with inReset := true, bellwether := false, faultN := false, resetDue := false }
    { s with sys, crook, log := resetLog s.log, frames := [] }

/-- RESET_N_DEASSERT: the straps are latched, and every object takes its reset value (R7).
DESIGN CHOICE, log entry 13. DEDUCED, log entries 80, 98. -/
def resetDeassertDo (role : Bool) (devid : Nat) (s : State) : State :=
  if !s.sys.inReset then s
  else
    let sys := { sysReset with perst := s.sys.perst, role, devid, boots := s.sys.boots }
    let crook := { crookStReset with secret := s.crook.secret, writesLeft := s.crook.writesLeft }
    let flash := { s.flash with state := 0, prog := none, lastPatrol := none }
    let r := { State.reset with pending := s.pending, hostMem := s.hostMem, out := s.out, free := s.free }
    let r := { r with sys, crook, flash, log := resetLog s.log }
    if role then
      let r := (r.put F.roleCfg_ROLE 0 2).put F.identStatus_STATE 0 1
      r.setStagedObj .roleCfg 0 (r.obj .roleCfg 0)
    else r

/-- DEVICE_RESET_BEGIN: the reset acts as a RESET_N pulse, the straps as they were (R376). DEDUCED, log entry 80. -/
def deviceResetDo (s : State) : State :=
  if !s.sys.resetDue then s
  else
    let s := resetDeassertDo s.sys.role s.sys.devid (resetAssertDo s)
    { s with sys := { s.sys with byCommand := true } }

/-- POWER_LOSS: RESET_N is asserted before a rail falls (R381), and the on-chip store is lost. With FLASH STATE FAILED every
record is lost: nothing of the log is taken from the flash again (Table ER-9). DEDUCED, log entry 81. -/
def powerLossDo (s : State) : State :=
  let gone := s.flash.state == 3
  let s := resetAssertDo s
  let s := { s with log := logReset }
  if gone then { s with flash := { s.flash with blocks := s.flash.blocks.filter (·.2.state == 3) } } else s

/-! ## PERST_N (R366) -/

/-- PERST_N_ASSERT: the link goes down first, then every queue and ring is off; every vector is masked. While RESET_N is
asserted that is so already. PRESUMED, log entry 43. DEDUCED, log entry 84. -/
def perstAssertDo (s : State) : State :=
  if s.sys.perst then s
  else if s.sys.inReset then { s with sys := { s.sys with perst := true } }
  else
    let s := { s with sys := { s.sys with perst := true } }
    let s := s.puts 0 [(F.hostStatus_LINK_GEN, 0), (F.hostStatus_LINK_WIDTH, 0)]
    let s := hostReset s
    let queues := s.crook.queues.map fun e => (e.1, { e.2 with done := [] })
    { s with crook := { s.crook with queues }, host := { s.host with msix := [] } }

/-- PERST_N_DEASSERT: training begins once the crook has started too. -/
def perstDeassertDo (s : State) : State :=
  if !s.sys.perst then s
  else
    let s := { s with sys := { s.sys with perst := false } }
    if crookUp s then trainLink s else s

/-! ## Steps of start-up (Table SU-2) -/

/-- PHASE takes a value, unless a fatal fault has set it. -/
def setPhase (n : Nat) (s : State) : State := if s.flt.fatal then s else { s with sys := { s.sys with phase := n } }

/-- START_STATUS as host software reads it over PCIe (Table SU-1): ELAPSED_US counts from the deassertion of RESET_N, where
the FRC starts at 0, until READY or FATAL freezes it. DEDUCED, log entry 96. -/
def startStatus (s : State) : Word :=
  let y := s.sys
  BitVec.ofNat 64 (y.phase % 8 * 2 ^ 61 + b2n y.romOk * 2 ^ 60 + b2n y.testDone * 2 ^ 59 + b2n y.testFail * 2 ^ 58 +
    b2n y.calDone * 2 ^ 57 + b2n y.logReady * 2 ^ 56 + b2n y.byCommand * 2 ^ 55 + b2n y.role * 2 ^ 54 +
    y.devid % 1024 * 2 ^ 44 + y.elapsed.getD (s.frc / 1000) % 2 ^ 32)

/-- The 64-bit word that host software reads at an offset of BAR0 of a function, 1 MiB long (R296): the MSI-X table at
0x0_0000 and the pending-bit array at 0x0_2000; in PF0 START_STATUS at 0x0_4000 (Table SU-1) and the register blocks of the
command queues from 0x0001_0000 on (Table CP-6). Any other word reads 0. DESIGN CHOICE, log entry 124. -/
def barWord (fn offset : Nat) (s : State) : Word :=
  let e := s.msix (fn * 512 + offset / 16)
  let c := s.cmdq (offset % 2 ^ 12 / 64)
  let word : Nat :=
    if offset < 0x2000 then (if offset % 16 == 0 then e.addr else b2n e.masked * 2 ^ 32 + e.data)
    else if offset < 0x2040 then
      ((List.range 64).map fun b => b2n (pendingBit (fn * 512 + (offset - 0x2000) * 8 + b) s) * 2 ^ b).foldl (· + ·) 0
    else if fn == 0 && offset == 0x4000 then (startStatus s).toNat
    else if fn == 0 && 0x10000 ≤ offset && offset < 0x11000 then
      match offset % 64 with
      | 0x00 => c.sqBase
      | 0x08 => b2n c.enable * 2 ^ 63 + b2n (cmdQuiesced (offset % 2 ^ 12 / 64) s) * 2 ^ 62 + c.sqLog2 * 2 ^ 56 +
          c.cqLog2 * 2 ^ 52
      | 0x10 => c.sqTail
      | 0x18 => c.sqHead
      | 0x20 => c.cqBase
      | 0x28 => c.cqHead
      | 0x30 => c.cqTail
      | _ => 0
    else 0
  BitVec.ofNat 64 word

/-- FUSES_LOADED: BOOT_NONCE is drawn, and the on-chip store is checked; where it does not pass, the flash is read for the log
(R342). -/
def fusesLoadedDo (s : State) : State :=
  if s.sys.inReset || s.sys.fuses then s
  else
    let s := setPhase 2 { s with sys := { s.sys with fuses := true, boots := s.sys.boots + 1 } }
    let s := { s with log := { s.log with kept := s.log.kept && storeGood s } }
    if !s.log.kept && s.on F.flashCfg_EN 0 then flashFound 2 s else s

/-- CROOK_START: the ROM check starts, commands are accepted, and the link trains unless PERST_N holds it.
DESIGN CHOICE, log entry 17. -/
def crookStartDo (s : State) : State :=
  if s.sys.inReset || !s.sys.fuses || s.sys.crookOn then s
  else
    let s := romCheckStartDo (setPhase 3 { s with sys := { s.sys with crookOn := true } })
    if s.sys.perst then s else trainLink s

/-- A word that self-test finds failing, by its reference and syndrome (R368): TEST_FAIL, its checker's counts, its source; in
unit FAULT it raises FS_UE_FAULT, whatever its syndrome. DEDUCED, log entry 81. -/
def testWord (w syn : Nat) (s : State) : State :=
  let chk := w / 2 ^ 64
  if syn % 256 == 0 || !checkerOk chk then s
  else
    let syn := syn % 256
    let s := { s with sys := { s.sys with testFail := true } }
    let s := s.puts chk [(F.chkStatus_SYNDROME, syn), (F.chkStatus_ADDR, wordAddr chk (w % 2 ^ 64))]
    if weight8 syn % 2 == 1 then
      let s := raise 0x01 chk (some syn) .plain none (s.inc F.chkStatus_CE chk)
      whenever (chk / 2 ^ 24 == 0x10) (raise 0x06 chk (some syn) .plain none) s
    else
      let s := raise (chkSource chk) chk (some syn) .plain none (s.inc F.chkStatus_UE chk)
      if chk == instOf 0x11 0 then storeFailed s else s
where
  /-- The store fails the check of R342: the log is to be restored from flash. -/
  storeFailed (s : State) : State :=
    let s := { s with log := { s.log with kept := false }, sys := { s.sys with logReady := false } }
    if s.on F.flashCfg_EN 0 && s.flash.state != 3 then flashFound 2 s else s

/-- SELF_TEST_DONE: every word is at its reset value, the record store apart, and the override of the fold ends (R178).
DEDUCED, log entry 83. -/
def selfTestDoneDo (failed : List (Nat × Nat)) (s : State) : State :=
  if !crookUp s || s.sys.testDone then s
  else
    let s := failed.foldl (fun s w => testWord w.1 w.2 s) s
    overrideEnd { s with sys := { s.sys with testDone := true } }

/-- LANE_CALIBRATION_DONE: the lanes and the octets' PLLs that have failed (R56, R368). DEDUCED, log entries 40, 83. -/
def laneCalibrationDo (lanes plls : List Nat) (s : State) : State :=
  if !crookUp s || s.sys.calDone then s
  else
    let s := lanes.foldl (fun s l => raisePlain 0x0A (laneInst l) (s.put F.lanePower_CAL_FAIL l 1)) s
    let s := plls.foldl (fun s o => raisePlain 0x0B (instOf 0x02 o) s) s
    { s with sys := { s.sys with calDone := true } }

/-- LOG_RESTORE: a store that was not kept is rebuilt from flash; a kept one stays as it is (R342). -/
def logRestoreDo (s : State) : State :=
  if !crookUp s || s.log.kept || s.sys.logReady || s.flash.state != 2 then s
  else
    let s := restoreLog s
    { s with log := { s.log with kept := true } }

/-- LOG_AVAILABLE: the log is open; a log that neither the chip nor the flash has kept starts anew. A fatal fault declared
before ready then writes its records (R390). DEDUCED, log entry 82. -/
def logAvailableDo (s : State) : State :=
  let usable := s.log.kept || s.flash.state == 3 || !s.on F.flashCfg_EN 0
  if !crookUp s || s.sys.logReady || !usable then s
  else
    let s := logOpen (if s.log.kept then s else newLog s)
    if s.flt.fatal && s.log.holding then flushFatal s else s

/-- The bytes of the control stores in the order of R314. -/
def romBytes : List Byte :=
  (List.range 8192).flatMap (fun i => natBytes 3 (Config.microword i).toNat) ++
    (List.range 2048).flatMap (fun i => natBytes 18 (Config.nanoword i).toNat)

/-- The check of the ROM has given a CRC: match, or mismatch with FS_CROOK_ROM (R314, R369). -/
def romChecked (crc : Nat) (s : State) : State :=
  let good := crc == s.get F.crookId_ROM_CRC 0
  let s := s.puts 0 [(F.crookId_CALC_CRC, crc), (F.crookId_CHECK_STATE, if good then 2 else 3)]
  let first := !s.sys.romDone
  let s := { s with sys := { s.sys with romDone := true, romOk := if first then good else s.sys.romOk } }
  if good then s else raise 0x12 (instOf 0x12 0) none .plain (some (0x15, crc, s.get F.crookId_ROM_CRC 0)) s

/-- ROM_CHECK_DONE. -/
def romCheckDoneDo (s : State) : State :=
  if s.get F.crookId_CHECK_STATE 0 == 1 then romChecked (crc32c romBytes 0xFFFFFFFF).toNat s else s

/-- Steps 3 to 7 of Table SU-2 are complete. -/
def startComplete (s : State) : Bool := s.sys.testDone && s.sys.calDone && s.sys.logReady && s.sys.romDone

/-- DEVICE_READY (R370). -/
def deviceReadyDo (s : State) : State :=
  if s.sys.phase != 3 || s.flt.fatal || s.sys.inReset || !startComplete s then s
  else
    let us := elapsedNow s
    let s := flushHeld (writeReset s)
    let s := recPlain 0x05 (us / 1000) 0 s
    { s with sys := { s.sys with phase := 4, elapsed := some us, bellSince := s.frc } }

/-- BELLWETHER_TOGGLE: every 500 µs of FRC while the device is ready and no fatal fault is declared (R330). -/
def bellwetherDo (s : State) : State :=
  if s.sys.phase == 4 && !s.flt.fatal && !s.sys.inReset && s.sys.bellSince + 500000 ≤ s.frc then
    { s with sys := { s.sys with bellwether := !s.sys.bellwether, bellSince := s.frc } }
  else s

end Sys2Proof.Machine
end

