-- ==== Sys2Proof/Machine/CommandRows.lean ====
section
/-! DEFINITION. Machine/CommandRows.lean: the rows of Novha commands, of what brings their packets to the crook, and
of the sideband ring (R271 to R292, R314, R349 to R362). -/

namespace Sys2Proof.Machine

open Sys2Proof

/-- The channel of an in-band command frame: its ingress port, its source address and its VLAN tags (R286). -/
def inbandChannel (f : Frame) : Channel :=
  let body := f.bytes.take (f.bytes.length - 4)
  .inband f.port0 (BitVec.ofNat 48 (bytesNat (slice body 6 6))) (slice body 12 ((f.parse.mark 0x0D).getD 14 - 14))

/-- The packet of an in-band command frame: the bytes between its EtherType and its FCS (R286). -/
def inbandPacket (f : Frame) : List Byte := (f.bytes.take (f.bytes.length - 4)).drop ((f.parse.mark 0x0D).getD 14)

/-- INBAND_COMMAND_TAKE: the head frame of port 1026 is selected, once it is whole, while the crook has room (R199, R276,
R286); its packet, between the EtherType and the FCS, is taken in. -/
def inbandTakeDo (s : State) : State :=
  if heldFull s || !crookUp s then s
  else match select 1026 true s with
    | none => s
    | some (t, f) =>
      if !f.ended then s
      else
        let (s, bad) := takeWords 1026 t f s
        if bad then pump (dropQueued f drEcc s)
        else
          let k := takeSelected 1026 t true f s
          let u := unstore k.1 k.2
          pump (intake (inbandChannel f) (inbandPacket f)
            (finish u.1 tmConsumed 0 0 (correctSent 1026 u.1 f.bytes.length u.2)))

/-- NOP (R292). -/
def execNop (r : Request) (f : Fetch) (s : State) : StepResult := .next (live (fun s => runRow (isRow opNop r.pkt s) bodyNop r f s) s)

/-- GET_INFO (R292). -/
def execGetInfo (r : Request) (f : Fetch) (s : State) : StepResult :=
  .next (live (fun s => runRow (isRow opGetInfo r.pkt s) bodyGetInfo r f s) s)

/-- READ (R8, R292). -/
def execRead (r : Request) (f : Fetch) (s : State) : StepResult := .next (live (fun s => runRow (isRow opRead r.pkt s) bodyRead r f s) s)

/-- WRITE (R8, R292, R391). -/
def execWrite (r : Request) (f : Fetch) (s : State) : StepResult := .next (live (fun s => runRow (isRow opWrite r.pkt s) bodyWrite r f s) s)

/-- WRITE_MASKED (R292). -/
def execWriteMasked (r : Request) (f : Fetch) (s : State) : StepResult :=
  .next (live (fun s => runRow (isRow opWriteMasked r.pkt s) bodyWriteMasked r f s) s)

/-- WRITE_LIST (R277 to R279). -/
def execWriteList (r : Request) (f : Fetch) (s : State) : StepResult :=
  .next (live (fun s => runRow (isRow opWriteList r.pkt s) bodyWriteList r f s) s)

/-- READ_DMA (R292). -/
def execReadDma (r : Request) (f : Fetch) (s : State) : StepResult :=
  .next (live (fun s => runRow (isRow opReadDma r.pkt s) bodyReadDma r f s) s)

/-- COMMIT (R10, R25 to R27, R277 to R279). One of unit FLASH may end a clear that waits for the flash (R346). -/
def execCommit (r : Request) (f : Fetch) (s : State) : StepResult :=
  .next (live (fun s => settleLog (runRow (isRow opCommit r.pkt s) bodyCommit r f s)) s)

/-- DISCARD_STAGED (R292). -/
def execDiscardStaged (r : Request) (f : Fetch) (s : State) : StepResult :=
  .next (live (fun s => runRow (isRow opDiscard r.pkt s) bodyDiscard r f s) s)

/-- EM_INSERT (R125). -/
def execEmInsert (r : Request) (f : Fetch) (s : State) : StepResult :=
  .next (live (fun s => runRow (isRow opEmInsert r.pkt s) bodyEmInsert r f s) s)

/-- EM_DELETE (R126). -/
def execEmDelete (r : Request) (f : Fetch) (s : State) : StepResult :=
  .next (live (fun s => runRow (isRow opEmDelete r.pkt s) bodyEmDelete r f s) s)

/-- EM_LOOKUP (R292). -/
def execEmLookup (r : Request) (f : Fetch) (s : State) : StepResult :=
  .next (live (fun s => runRow (isRow opEmLookup r.pkt s) bodyEmLookup r f s) s)

/-- RULE_INSERT (R135). -/
def execRuleInsert (r : Request) (f : Fetch) (s : State) : StepResult :=
  .next (live (fun s => runRow (isRow opRuleInsert r.pkt s) bodyRuleInsert r f s) s)

/-- RULE_DELETE (R135). -/
def execRuleDelete (r : Request) (f : Fetch) (s : State) : StepResult :=
  .next (live (fun s => runRow (isRow opRuleDelete r.pkt s) bodyRuleDelete r f s) s)

/-- OBJ_RELEASE (R145). -/
def execObjRelease (r : Request) (f : Fetch) (s : State) : StepResult :=
  .next (live (fun s => runRow (isRow opObjRelease r.pkt s) bodyObjRelease r f s) s)

/-- HIT_HARVEST (R129). -/
def execHitHarvest (r : Request) (f : Fetch) (s : State) : StepResult :=
  .next (live (fun s => runRow (isRow opHitHarvest r.pkt s) bodyHitHarvest r f s) s)

/-- LEARN_ACK (R140). -/
def execLearnAck (r : Request) (f : Fetch) (s : State) : StepResult :=
  .next (live (fun s => runRow (isRow opLearnAck r.pkt s) bodyLearnAck r f s) s)

/-- TALLY_READ_CLEAR (R220). -/
def execTallyReadClear (r : Request) (f : Fetch) (s : State) : StepResult :=
  .next (live (fun s => runRow (isRow opTallyReadClear r.pkt s) bodyTallyReadClear r f s) s)

/-- VERSION_COMMIT on the device that executes it (R161, R361). -/
def execVersionCommit (r : Request) (f : Fetch) (s : State) : StepResult :=
  .next (live (fun s => runRow (isRow opVersionCommit r.pkt s) bodyVersionCommit r f s) s)

/-- VERSION_DISCARD (R162). -/
def execVersionDiscard (r : Request) (f : Fetch) (s : State) : StepResult :=
  .next (live (fun s => runRow (isRow opVersionDiscard r.pkt s) bodyVersionDiscard r f s) s)

/-- VERSION_PREPARE (R361). -/
def execVersionPrepare (r : Request) (f : Fetch) (s : State) : StepResult :=
  .next (live (fun s => runRow (isRow opVersionPrepare r.pkt s) bodyVersionPrepare r f s) s)

/-- VERSION_COMMIT with BCAST and ATOMIC on the shepherd (R362). -/
def execFlockVersionCommit (r : Request) (f : Fetch) (s : State) : StepResult :=
  .next (live (fun s => runRow (!r.pkt.isReply && isFlockCommit r.pkt s) bodyVersionCommit r f s) s)

/-- RECORDER_READ (R336, R337). -/
def execRecorderRead (r : Request) (f : Fetch) (s : State) : StepResult :=
  .next (live (fun s => runRow (isRow opRecorderRead r.pkt s) bodyRecorderRead r f s) s)

/-- RECORDER_CLEAR (R338): a clear that needs no wait replies at once. -/
def execRecorderClear (r : Request) (f : Fetch) (s : State) : StepResult :=
  .next (live (fun s => settleLog (runRow (isRow opRecorderClear r.pkt s) bodyRecorderClear r f s)) s)

/-- FAULT_ACK (R324). -/
def execFaultAck (r : Request) (f : Fetch) (s : State) : StepResult :=
  .next (live (fun s => runRow (isRow opFaultAck r.pkt s) bodyFaultAck r f s) s)

/-- FAULT_INJECT (R327). -/
def execFaultInject (r : Request) (f : Fetch) (s : State) : StepResult :=
  .next (live (fun s => runRow (isRow opFaultInject r.pkt s) bodyFaultInject r f s) s)

/-- UNIT_RESET (R326). -/
def execUnitReset (r : Request) (f : Fetch) (s : State) : StepResult :=
  .next (live (fun s => runRow (isRow opUnitReset r.pkt s) bodyUnitReset r f s) s)

/-- DEVICE_RESET (R376): its programs may end a clear that waits for the flash. -/
def execDeviceReset (r : Request) (f : Fetch) (s : State) : StepResult :=
  .next (live (fun s => settleLog (runRow (isRow opDeviceReset r.pkt s) bodyDeviceReset r f s)) s)

/-- IDENT_CHALLENGE (R356). -/
def execIdentChallenge (r : Request) (f : Fetch) (s : State) : StepResult :=
  .next (live (fun s => runRow (isRow opIdentChallenge r.pkt s) bodyIdentChallenge r f s) s)

/-- CUSTODY_SET (R352). -/
def execCustodySet (r : Request) (f : Fetch) (s : State) : StepResult :=
  .next (live (fun s => runRow (isRow opCustodySet r.pkt s) bodyCustodySet r f s) s)

/-- ADMIT (R358). -/
def execAdmitMember (r : Request) (f : Fetch) (s : State) : StepResult :=
  .next (live (fun s => runRow (isRow opAdmit r.pkt s) bodyAdmit r f s) s)

/-- A WRITE to COLLECT (R360). -/
def execCollectWrite (r : Request) (f : Fetch) (s : State) : StepResult :=
  .next (live (fun s => runRow (!r.pkt.isReply && isCollect r.pkt) bodyCollect r f s) s)

/-- A waiting version commit whose condition holds (R161). -/
def execVersionCommitResume (s : State) : StepResult := .next (live commitResumeDo s)

/-- COMMIT_TIMEOUT of a waiting version commit (R161). -/
def execVersionCommitTimeout (s : State) : StepResult := .next (live commitTimeoutDo s)

/-- A waiting VERSION_PREPARE whose condition holds (R361). -/
def execVersionPrepareResume (s : State) : StepResult := .next (live prepareResumeDo s)

/-- COMMIT_TIMEOUT of a waiting VERSION_PREPARE (R361). -/
def execVersionPrepareTimeout (s : State) : StepResult := .next (live prepareTimeoutDo s)

/-- The resend timer of a flock-wide commit (R362). -/
def execFlockCommitResend (s : State) : StepResult := .next (live flockResendDo s)

/-- The wait for the prepare replies of a flock-wide commit ends (R362). -/
def execFlockPrepareTimeout (s : State) : StepResult := .next (live flockPrepareTimeoutDo s)

/-- A packet that steps 1 to 4 of R271 discard. -/
def execPacketDiscard (ch : Channel) (bytes : List Byte) (s : State) : StepResult :=
  .next (live (packetDiscardDo ch bytes) s)

/-- SQ_TAIL is written (R283, R391). -/
def execSqTailWrite (q tail : Nat) (mem : List HostWrite) (s : State) : StepResult :=
  onRange 64 q s (live (sqTailDo q tail mem))

/-- CQ_HEAD is written (R283, R391). -/
def execCqHeadWrite (q head : Nat) (s : State) : StepResult := onRange 64 q s (live (cqHeadDo q head))

/-- A command queue is enabled (R283). -/
def execCmdQueueEnable (q : Nat) (sqBase cqBase : BitVec 64) (sqLog2 cqLog2 : BitVec 4) (s : State) : StepResult :=
  onRange 64 q s (live (queueEnableDo q sqBase cqBase sqLog2 cqLog2))

/-- A command queue is disabled (R285). -/
def execCmdQueueDisable (q : Nat) (s : State) : StepResult := onRange 64 q s (live (queueDisableDo q))

/-- The crook takes an in-band command frame (R286). -/
def execInbandCommandTake (s : State) : StepResult := .next (path inbandTakeDo s)

/-- A token reaches the station (R288, R289). -/
def execSbTokenReceive (gen : BitVec 8) (mon : Bool) (s : State) : StepResult := .next (sbTokenDo gen mon s)

/-- A DATA frame reaches the station (R288, R289). -/
def execSbDataReceive (d : SbData) (s : State) : StepResult := .next (sbDataDo d s)

/-- A CLAIM frame reaches the station (R289). -/
def execSbClaimReceive (src : Nat) (crcOk : Bool) (s : State) : StepResult := .next (sbClaimDo src crcOk s)

/-- The monitor has seen no token for 20 ms (R289). -/
def execSbTokenTimeout (s : State) : StepResult := .next (sbTokenTimeoutDo s)

/-- The station has seen no token for 50 ms (R289). -/
def execSbClaimStart (s : State) : StepResult := .next (sbClaimStartDo s)

/-- The claim timer of a claiming station (R289). -/
def execSbClaimSend (s : State) : StepResult := .next (sbClaimSendDo s)

/-- 100 ms of claiming in vain (R289). -/
def execSbRingFault (s : State) : StepResult := .next (sbRingFaultDo s)

/-- CHECK of CROOK_ID is written 1 (R314). -/
def execRomCheckStart (s : State) : StepResult := .next (live romCheckStartDo s)

/-- A ROM check completes (R314). -/
def execRomCheckDone (s : State) : StepResult := .next (live romCheckDoneDo s)

end Sys2Proof.Machine
end

