-- ==== Sys2Proof/Machine/FrameRows.lean ====
section
/-! DEFINITION. Machine/FrameRows.lean: the rows of the frame path: ports, drove, pens, race, fold tails,
scheduling and telemetry. -/

namespace Sys2Proof.Machine

open Sys2Proof

/-- The first bit of a frame reaches a MAC (R237). -/
def execIngressFrameStart (port : Nat) (w : WireFrame) (s : State) : StepResult :=
  onRange 1024 port s (path (ingressStartDo port w))

/-- A header window is complete (R89, R90, R114). -/
def execHeaderWindowComplete (port : Nat) (s : State) : StepResult := onRange 1026 port s (path (headerWindowDo port))

/-- A pen completes a frame (R30 and chapters 4 to 6). -/
def execPenComplete (port seq : Nat) (s : State) : StepResult := onRange 1026 port s (path (penCompleteDo port seq))

/-- RACE_TIMEOUT of HEAD_SEQ of a port (R112). -/
def execRaceTimeout (port : Nat) (s : State) : StepResult := onRange 1026 port s (path (raceTimeoutDo port))

/-- A frame gets a further cell (R176). -/
def execFoldChainCell (frame : Nat) (s : State) : StepResult := .next (path (chainCellDo frame) s)

/-- The last byte of a frame arrives (R34, R177). -/
def execIngressFrameEnd (port : Nat) (s : State) : StepResult := onRange 1024 port s (path (ingressEndDo port))

/-- Byte MAX_FRAME + 1 of a frame arrives (R65). -/
def execOversizeCutOff (port : Nat) (s : State) : StepResult := onRange 1024 port s (path (oversizeCutDo port))

/-- A received pause timer expires (R71). -/
def execPauseTimerExpiry (port prio : Nat) (s : State) : StepResult := onRange 1024 port s (live (pauseExpiryDo port prio))

/-- A MAC sends a PFC or PAUSE frame (R70). -/
def execFlowControlFrameSend (port : Nat) (s : State) : StepResult := onRange 1024 port s (path (fcSendDo port))

/-- The REFRESH interval of a port (R70). -/
def execFlowControlRefresh (port : Nat) (s : State) : StepResult := onRange 1024 port s (path (fcRefreshDo port))

/-- VERIFY_TIME of a port (R74). -/
def execPreemptVerifyTimer (port : Nat) (s : State) : StepResult := onRange 1024 port s (path (verifyTimerDo port))

/-- A verify response arrives (R74). -/
def execPreemptVerifyResponse (port : Nat) (s : State) : StepResult := onRange 1024 port s (path (verifyResponseDo port))

/-- The change time of a gate list (R76). -/
def execGateListChange (port : Nat) (s : State) : StepResult := onRange 1024 port s (live (gateListChange port))

/-- The interval of a gate entry ends (R77). -/
def execGateEntryChange (port : Nat) (s : State) : StepResult := onRange 1024 port s (live (gateEntryChange port))

/-- A frame can start on a MAC (R193, R199, R200). -/
def execSchedSelect (port : Nat) (express : Bool) (s : State) : StepResult :=
  onRange 1028 port s (path (schedSelectDo port express))

/-- A calendar slot boundary (R196). -/
def execCalendarSlotVisit (s : State) : StepResult := .next (live slotVisitDo s)

/-- The last bit of a frame leaves (R65, R195). -/
def execEgressFrameEnd (port : Nat) (express : Bool) (s : State) : StepResult :=
  onRange 1024 port s (path (egressEndDo port express))

/-- EXP_FLUSH of the export frame being filled (R223). -/
def execExportFrameFlush (s : State) : StepResult := .next (path exportFlushDo s)

/-- A port loses its link (R82). -/
def execLinkLoss (port : Nat) (s : State) : StepResult := onRange 1024 port s (live (linkLossDo port))

/-- A port's link comes up (R81). -/
def execLinkUp (port : Nat) (s : State) : StepResult := onRange 1024 port s (live (linkUpDo port))

/-- DEBOUNCE ends (R83). -/
def execDebounceEnd (port : Nat) (s : State) : StepResult := onRange 1024 port s (live (debounceEndDo port))

/-- The flush of a port is complete (R84, R188). -/
def execPortFlushComplete (port : Nat) (s : State) : StepResult := onRange 1024 port s (live (flushCompleteDo port))

/-- HOLD has passed (R81). -/
def execHoldEnd (port : Nat) (s : State) : StepResult := onRange 1024 port s (live (holdEndDo port))

end Sys2Proof.Machine
end

