-- ==== Sys2Proof/Machine/HostRows.lean ====
section
/-! DEFINITION. Machine/HostRows.lean: the rows of the host port, its notifications, PERST_N and the muster (chapters 9 and 13). -/

namespace Sys2Proof.Machine

open Sys2Proof

/-- TAIL of a ring, and what host software has written before it. A doorbell is a write over the link, which must be up; an
offset that is no ring's doorbell changes nothing. -/
def ringTailDo (door : TailPath) (place tail : Nat) (mem : List HostWrite) (s : State) : State :=
  let s := hostSoftware mem s
  match door with
  | .command tx => tailWrite tx place tail s
  | .doorbell fn =>
    match doorbellRing fn place with
    | some (tx, ring) => whenever (pcieUp s) (tailWrite tx ring tail) s
    | none => s

/-- The host memory that a command of a PCIe queue writes its data to: READ_DMA's and HIT_HARVEST's (Table CP-11). -/
def dataBuffer (p : Packet) : Option (Nat × Nat) :=
  if p.opcode == opReadDma then (objectsOf p).map fun o => (pw p 0, 8 * (o.2.2 * objWords o.1))
  else if p.opcode == opHitHarvest && pw p 1 != 0 then some (pw p 1, 8 * (pw p 0 % 2 ^ 32))
  else none

/-- An access at an address is one that a held command makes: of its request packet, its reply or its data. -/
def accesses (q addr : Nat) (h : Held) : Bool :=
  match h.req.chan with
  | .pcie p c a _ _ =>
    p == q && (c == addr || a == addr || (dataBuffer h.req.pkt).any fun b => b.1 ≤ addr && addr < b.1 + b.2)
  | _ => false

/-- The command of a queue that an access fails for; completed with ABORTED (R284). DEDUCED, log entry 85. -/
def dmaCommand (q addr : Nat) (s : State) : State :=
  match s.crook.held.find? (accesses q addr) with
  | some h => crookPump (completeHeld h.n stAborted 0 (abandon h.n s))
  | none => dmaEntry
where
  /-- The next entry of the queue, where its request packet is what could not be read. -/
  dmaEntry : State :=
    let c := s.cmdq q
    let a := c.sqBase + 32 * c.sqHead
    if c.enable && c.sqHead != c.sqTail && (s.hostWord a).toNat == addr then
      complete q stAborted 0 (BitVec.ofNat 32 (s.hostWord (a + 24)).toNat)
        (s.setCmdq q { c with sqHead := (c.sqHead + 1) % 2 ^ c.sqLog2 })
    else s

/-- HOST_DMA_ERROR of a function (0 commands, 1 rings, 2 records and muster, 3 faults): the error of R303; a command
completes with ABORTED (R284), a ring is disabled. DEDUCED, log entry 85. -/
def hostDmaErrorDo (fn ring addr : Nat) (s : State) : State :=
  if !pcieUp s then s
  else
    let s := dmaError fn ring addr s
    match fn with
    | 0 => if ring < 64 then dmaCommand ring addr s else s
    | 1 => if ring < 256 then rxDisableDo ring s else if ring < 512 then txFetchFails (ring - 256) s else s
    | 2 => if ring == 256 then rxDisableDo 256 s else s
    | _ => s

/-- A frame is delivered to its ring (R299). -/
def execHostRxDeliver (ring : Nat) (s : State) : StepResult := onRange 256 ring s (path (rxDeliverDo ring))

/-- HOLD of a ring passes (R299). -/
def execHostRingHoldExpiry (ring : Nat) (s : State) : StepResult := onRange 256 ring s (path (rxHoldDo ring))

/-- TAIL of a ring is written, through a doorbell or a command (R297). -/
def execRingTailWrite (door : TailPath) (place : Nat) (tail : BitVec 12) (mem : List HostWrite) (s : State) : StepResult :=
  match door with
  | .command tx => onRange (if tx then 256 else 257) place s (live (ringTailDo door place tail.toNat mem))
  | .doorbell fn => onRange 4 fn s (live (ringTailDo door place tail.toNat mem))

/-- EN of an RX ring is written 1 (R297). -/
def execRxRingEnable (ring : Nat) (s : State) : StepResult := onIdx .rxRing ring s (live (ringEnableDo false ring))

/-- EN of a TX ring is written 1 (R297). -/
def execTxRingEnable (ring : Nat) (s : State) : StepResult := onIdx .txRing ring s (live (ringEnableDo true ring))

/-- EN of an RX ring is written 0 (R300). -/
def execRxRingDisable (ring : Nat) (s : State) : StepResult := onIdx .rxRing ring s (live (rxDisableDo ring))

/-- EN of a TX ring is written 0 (R303). -/
def execTxRingDisable (ring : Nat) (s : State) : StepResult := onIdx .txRing ring s (live (txDisableDo ring))

/-- The host port fetches a frame (R302). -/
def execHostTxFetch (s : State) : StepResult := .next (path txFetchDo s)

/-- A buffer of records is complete (R301). -/
def execRecordDescriptorWrite (ring : Nat) (s : State) : StepResult := onRange 257 ring s (live (recordDescDo ring))

/-- A host-memory access fails (R284, R303). -/
def execHostDmaError (fn ring : Nat) (addr : BitVec 64) (s : State) : StepResult :=
  onRange 4 fn s (live (hostDmaErrorDo fn ring addr.toNat))

/-- PENDING of a vector reaches COUNT (R304). -/
def execVectorNotify (v : Nat) (s : State) : StepResult := onIdx .vector v s (live (vectorNotifyDo v))

/-- HOLDOFF of a vector passes (R304). -/
def execVectorHoldoffExpiry (v : Nat) (s : State) : StepResult := onIdx .vector v s (live (vectorHoldoffDo v))

/-- A vector is unmasked (R304). -/
def execVectorUnmask (w : Unmask) (s : State) : StepResult :=
  onIdx .vector w.v s (live (vectorUnmaskDo w.v w.addr.toNat w.data.toNat))

/-- PERST_N is asserted (R366). -/
def execPerstNAssert (s : State) : StepResult := .next (perstAssertDo s)

/-- PERST_N deasserts (R366). -/
def execPerstNDeassert (s : State) : StepResult := .next (perstDeassertDo s)

/-- A muster tick (R228). -/
def execMusterTick (s : State) : StepResult := .next (live musterTickDo s)

/-- A muster dump finishes (R228). -/
def execMusterDumpComplete (s : State) : StepResult := .next (live dumpCompleteDo s)

/-- 1 ms after a muster chunk that was not answered OK (R359). -/
def execMusterChunkResend (s : State) : StepResult := .next (live chunkResendDo s)

end Sys2Proof.Machine
end

