-- ==== Sys2Proof/Machine/LinkRows.lean ====
section
/-! DEFINITION. Machine/LinkRows.lean: the rows of lanes, flock links and the time unit (chapters 2, 10, 11). -/

namespace Sys2Proof.Machine

open Sys2Proof

/-- SYNC_INTERVAL has passed since the last time records (R247). -/
def recordsDue (s : State) : Bool :=
  match s.time.lastRecord with
  | none => true
  | some t => t + s.get F.flockTime_SYNC_INTERVAL 0 * 1000 ≤ s.frc

/-- TIME_RECORD_SEND: every SYNC_INTERVAL one record on each link whose transmit page maps a time channel, while its framer
runs (R247, R263). DESIGN CHOICE, log entry 87. -/
def timeSendDo (s : State) : State :=
  if !recordsDue s then s
  else
    ((List.range 128).filter fun o => framerRuns o s && !(txSlots o 3 s).isEmpty).foldl
      (fun s o => timeRecordSent o (timeRecordOut o (timeRecordBits o s) s))
      { s with time := { s.time with lastRecord := some s.frc } }

/-- TIME_RECORD_RECEIVE: a record whose blocks are errored is discarded (R247); in a near-end loopback it is the oldest that
the octet has sent (R53). -/
def timeTakeDo (o : Nat) (rec : BitVec 256) (errored : Bool) (s : State) : State :=
  if !channelHears o 3 s then s
  else if hearsLoop (octetLanes o) s then
    match (s.link o).loopTime with
    | [] => s
    | r :: rs => timeRecordTake o r (s.setLink o { s.link o with loopTime := rs })
  else if errored || !hearsLine (octetLanes o) s then s
  else timeRecordTake o rec s

/-- REQ of a lane is written (R54). -/
def execLanePowerReqWrite (lane : Nat) (req : BitVec 2) (s : State) : StepResult :=
  onIdx .lanePower lane s (live fun s => settleResets (powerReqDo lane req.toNat s))

/-- A lane completes its transition (R54 to R56). -/
def execLaneStateReached (lane : Nat) (s : State) : StepResult :=
  onIdx .lanePower lane s (live fun s => settleResets (laneReachedDo lane s))

/-- A lane has no CDR lock 60 µs after an L2 exit began (R56). -/
def execLaneCalTimeout (lane : Nat) (pll : Bool) (s : State) : StepResult :=
  onIdx .lanePower lane s (live fun s => settleResets (laneCalTimeoutDo lane pll s))

/-- LANE_TXEQ is written (R39). -/
def execLaneTxeqWrite (lane : Nat) (v : Word) (s : State) : StepResult :=
  onIdx .laneTxeq lane s (live (txeqDo lane (v.zeroExtend 512)))

/-- ADAPT is written (R40). -/
def execLaneRxeqAdaptWrite (lane : Nat) (adapt : BitVec 2) (s : State) : StepResult :=
  onIdx .laneRxeq lane s (live (rxeqAdaptDo lane adapt.toNat))

/-- CLEAR of PRBS_CTRL is written (R52). -/
def execPrbsClear (lane : Nat) (s : State) : StepResult := onIdx .prbsCtrl lane s (live (prbsClearDo lane))

/-- The PRBS checker locks (R51). -/
def execPrbsLock (lane : Nat) (s : State) : StepResult := onIdx .prbsCount lane s (live (prbsLockDo lane))

/-- The PRBS checker loses lock (R51). -/
def execPrbsLockLoss (lane errs : Nat) (s : State) : StepResult := onIdx .prbsCount lane s (live (prbsLossDo lane errs))

/-- A group of a flock lane ends (R45 to R47); a receiver without a signal has no group of its own. -/
def execFlockLaneGroupEnd (lane txStuff : Nat) (rxStuff : Option Nat) (viol hdrErr : Nat) (s : State) : StepResult :=
  onIdx .laneCfg lane s (live (groupEndDo lane txStuff (rxStuff.getD 0) viol hdrErr rxStuff.isSome))

/-- An alignment marker is due on a flock lane (R49). -/
def execAmMarkerReceive (lane : Nat) (good : Bool) (seq arrival : Nat) (s : State) : StepResult :=
  onIdx .laneCfg lane s (live (markerDo lane good seq arrival))

/-- An SFCLK tick starts a superframe (R252 to R255): its overhead block starts at start and its tick is at tick, both in
2^-16 of the framer's block time, and e of R253 is their difference. -/
def execSuperframeStart (octet start tick : Nat) (s : State) : StepResult :=
  onRange 128 octet s (live (superframeDo octet ((start : Int) - tick)))

/-- The framer receives a block at position x, whose bits are those of an overhead block at an overhead position (Table FL-4),
and with it what came before it since the last overhead position (R252 to R257). -/
def execOverheadBlockReceive (octet : Nat) (ctrl : Bool) (faw : BitVec 32) (rest : BitVec 96) (x : Nat)
    (slots : List (Nat × List Block)) (fillers : List (BitVec 128)) (s : State) : StepResult :=
  onRange 128 octet s (live (overheadDo octet ctrl (faw ++ rest) x ⟨slots, fillers⟩))

/-- A defect is declared (R258). -/
def execFlockDefectDeclare (octet defect : Nat) (s : State) : StepResult :=
  onRange 128 octet s (live (defectDo octet defect true))

/-- A defect clears (R258). -/
def execFlockDefectClear (octet defect : Nat) (s : State) : StepResult :=
  onRange 128 octet s (live (defectDo octet defect false))

/-- SWITCH is written (R265). -/
def execLinkPageSwitch (octet : Nat) (s : State) : StepResult := onRange 128 octet s (live (pageSwitchDo octet))

/-- The transmit page switches (R265). -/
def execTxPageSwitch (octet : Nat) (s : State) : StepResult := onRange 128 octet s (live (txPageDo octet))

/-- The receive page switches (R265). -/
def execRxPageSwitch (octet : Nat) (s : State) : StepResult := onRange 128 octet s (live (rxPageDo octet))

/-- TOD_SET with OP SET; NS over 999,999,999 changes nothing (R235). -/
def execTodSetSet (sec : BitVec 48) (ns : BitVec 32) (frac : BitVec 16) (s : State) : StepResult :=
  .next (live (whenever (ns.toNat ≤ 999999999) (setTo sec.toNat ns.toNat frac.toNat)) s)

/-- TOD_SET with OP STEP (R235). -/
def execTodSetStep (step : BitVec 64) (s : State) : StepResult := .next (live (stepBy false step.toInt) s)

/-- SERVO_IN is written; while SRC is not 00 it changes nothing (R236). -/
def execServoInWrite (offset : BitVec 64) (s : State) : StepResult :=
  .next (live (whenever (servoInOk s) (servoSample offset.toInt)) s)

/-- SAMPLE_TIMEOUT while TRACKING (R236). -/
def execServoHoldover (s : State) : StepResult := .next (live servoHoldoverDo s)

/-- TREF is lost (R234). -/
def execTrefLoss (s : State) : StepResult := .next (live trefLossDo s)

/-- The PLL locks to TREF (R234). -/
def execTrefLock (s : State) : StepResult := .next (live trefLockDo s)

/-- An edge on PPS_IN (R245, R246). -/
def execPpsEdge (falling : Bool) (s : State) : StepResult := .next (live (ppsEdgeDo falling) s)

/-- A leading edge of TOUTn (R243). -/
def execToutEdge (n : Nat) (s : State) : StepResult := onIdx .tout n s (live (toutEdgeDo n))

/-- A pulse of TOUTn ends (R243). -/
def execToutPulseEnd (n : Nat) (s : State) : StepResult := onIdx .tout n s (live (toutPulseEndDo n))

/-- A read of TS_FIFO takes its oldest entry (R241). -/
def execTsFifoRead (s : State) : StepResult := .next (live (fun s => (tsTake s).2) s)

/-- A time record leaves on every time channel (R247). -/
def execTimeRecordSend (s : State) : StepResult := .next (live timeSendDo s)

/-- A time record arrives (R247, R248). -/
def execTimeRecordReceive (octet : Nat) (rec : BitVec 256) (errored : Bool) (s : State) : StepResult :=
  onRange 128 octet s (live (timeTakeDo octet rec errored))

end Sys2Proof.Machine
end

