-- ==== Sys2Proof/Machine/SystemRows.lean ====
section
/-! DEFINITION. Machine/SystemRows.lean: the rows of the pace loop, faults, the recorder and its flash, start-up, and flock
management (chapters 1, 15 to 19). -/

namespace Sys2Proof.Machine

open Sys2Proof

/-- A pace sample (R18, R20). -/
def execPaceSample (pen bank : Nat) (s : State) : StepResult := .next (live (paceSampleDo pen bank) s)

/-- The read poll of the AVS interface (R382). -/
def execAvsReadPoll (s : State) : StepResult := .next (live avsReadDo s)

/-- An AVS response (R382). -/
def execAvsResponse (w : BitVec 32) (s : State) : StepResult := .next (live (avsResponseDo w) s)

/-- 100 µs without an acknowledge (R19). -/
def execAvsNoAckTimeout (s : State) : StepResult := .next (live avsTimeoutDo s)

/-- The resend timer of HOLD (R19). -/
def execAvsHoldResend (s : State) : StepResult := .next (live avsResendDo s)

/-- An escalation window expires (R325). -/
def execEscalationExpiry (src : Nat) (s : State) : StepResult := onIdx .srcCfg src s (live (escalateDo src))

/-- LIVE of a source clears with TRANSIENT_OK 1 (R323). -/
def execEscalationTimerStop (src : Nat) (s : State) : StepResult := onIdx .srcCfg src s (live (timerStopDo src))

/-- BELLWETHER toggles (R330). -/
def execBellwetherToggle (s : State) : StepResult := .next (bellwetherDo s)

/-- The junction sensor reads above 105 °C (Table FA-4). -/
def execTempHigh (s : State) : StepResult := .next (live tempHighDo s)

/-- The junction sensor reads 103 °C or less (Table FA-4). -/
def execTempHighClear (s : State) : StepResult := .next (live tempClearDo s)

/-- The junction sensor has read 115 °C or more for 10 µs (Table FA-4). -/
def execTempTrip (s : State) : StepResult := .next (live tempTripDo s)

/-- The open time of a record passes (R334). -/
def execRecordClose (seq : Nat) (s : State) : StepResult := .next (live (closeSeq seq) s)

/-- A page program completes (R341). -/
def execFlashProgramDone (s : State) : StepResult := .next (live (fun s => settleLog (programDoneDo s)) s)

/-- A program or erase fails (R343). -/
def execFlashOpFail (block : Nat) (erase : Bool) (s : State) : StepResult :=
  .next (live (fun s => settleLog (opFailDo block erase s)) s)

/-- Compaction (R344). -/
def execFlashCompaction (s : State) : StepResult := .next (live compactDo s)

/-- A patrol (R345). -/
def execFlashPatrol (found : List PatrolFinding) (s : State) : StepResult := .next (live (patrolDo found) s)

/-- The flash fails (R346). -/
def execFlashFail (cause : Nat) (s : State) : StepResult := .next (live (fun s => settleLog (flashFailDo cause s)) s)

/-- The log is kept or restored (R342). -/
def execLogRestore (s : State) : StepResult := .next (live logRestoreDo s)

/-- RESET_N is asserted (R365). -/
def execResetNAssert (s : State) : StepResult := .next (resetAssertDo s)

/-- RESET_N deasserts (R7, R364, R367). -/
def execResetNDeassert (role : Bool) (devid : BitVec 10) (s : State) : StepResult :=
  .next (resetDeassertDo role devid.toNat s)

/-- The reset of a DEVICE_RESET begins (R376). -/
def execDeviceResetBegin (s : State) : StepResult := .next (live deviceResetDo s)

/-- The fuses are loaded (R367). -/
def execFusesLoaded (s : State) : StepResult := .next (fusesLoadedDo s)

/-- The crook starts (R367, R369). -/
def execCrookStart (s : State) : StepResult := .next (crookStartDo s)

/-- Memory self-test is complete (R368). -/
def execSelfTestDone (failed : List (Nat × Nat)) (s : State) : StepResult := .next (live (selfTestDoneDo failed) s)

/-- Lane calibration is complete (R368). -/
def execLaneCalibrationDone (lanes plls : List Nat) (s : State) : StepResult :=
  .next (live (laneCalibrationDo (lanes.filter (· < 1024)) (plls.filter (· < 128))) s)

/-- The event log is available (R390). -/
def execLogAvailable (s : State) : StepResult := .next (live (fun s => settleLog (logAvailableDo s)) s)

/-- The device becomes ready (R370). -/
def execDeviceReady (s : State) : StepResult := .next (deviceReadyDo s)

/-- The supplies fall (R347, R381). -/
def execPowerLoss (s : State) : StepResult := .next (powerLossDo s)

/-- RELAY_TIMEOUT of a relay (R354, R355). -/
def execRelayReplyTimeout (k : Nat) (s : State) : StepResult := .next (live (relayTimeoutDo k) s)

/-- A packet arrives on a control pipe (R353). -/
def execControlPipePacket (octet : Nat) (f : ControlFrame) (s : State) : StepResult :=
  onRange 128 octet s (live (controlPacketDo octet f.bytes f.blockErr))

/-- The shepherd challenges a device (R357). -/
def execShepherdChallenge (d : Nat) (s : State) : StepResult := onRange 1024 d s (live (shepherdChallengeDo d))

/-- A challenge reply is checked (R357). -/
def execChallengeReply (d : Nat) (params : List Word) (s : State) : StepResult :=
  onRange 1024 d s (live (challengeReplyDo d params))

/-- RELAY_TIMEOUT of a challenge or an ADMIT in flight (R357, R358). -/
def execChallengeTimeout (d : Nat) (s : State) : StepResult := onRange 1024 d s (live (challengeTimeoutDo d))

/-- RELAY_TIMEOUT of a COLLECT write sent upstream (R359). -/
def execCollectReplyTimeout (s : State) : StepResult := .next (live collectTimeoutDo s)

end Sys2Proof.Machine
end

