-- ==== Sys2Proof/Machine/TableRows.lean ====
section
/-! DEFINITION. Machine/TableRows.lean: the rows of quotas, policers, the carving, learning, tables and versions. -/

namespace Sys2Proof.Machine

open Sys2Proof

/-- LEARN_FILTER_EXPIRY: 100 ms after its time, an entry is removed (R140). -/
def filterExpiryDo (addr fid : Nat) (s : State) : State :=
  let lapsed (e : FilterEntry) : Bool := e.addr == addr && e.fid == fid && e.since + 100000000 ≤ s.frc
  { s with tab := { s.tab with filter := s.tab.filter.filter fun e => !lapsed e } }

/-- LIMIT of a requester is written (R184). -/
def execReqQuotaLimitWrite (req : Nat) (limit : BitVec 22) (s : State) : StepResult :=
  onIdx .reqQuota req s (live (limitWriteDo req limit.toNat))

/-- POL_STATE is written (R206). -/
def execPolStateWrite (pol : Nat) (c e : BitVec 42) (s : State) : StepResult :=
  onIdx .polState pol s (live (polStateWriteDo pol c.toNat e.toNat))

/-- A DRAINING block joins its new pool (R170). -/
def execCarveBlockJoin (block : Nat) (s : State) : StepResult := onIdx .carve block s (live (carveJoinDo block))

/-- Fold recovery completes (R179). -/
def execFoldRecoveryDone (s : State) : StepResult := .next (live (fun s => settleResets (foldRecoveryDoneDo s)) s)

/-- A pending-filter entry ends (R140). -/
def execLearnFilterExpiry (addr : BitVec 48) (fid : Nat) (s : State) : StepResult :=
  .next (live (filterExpiryDo addr.toNat fid) s)

/-- A notice is delivered (R141, R359). -/
def execStrayNoticeDeliver (s : State) : StepResult := .next (live noticeDeliverDo s)

/-- The promoter moves entries to a home bucket (R127). -/
def execPromoterMove (bucket : Nat) (s : State) : StepResult := onRange 1310720 bucket s (live (promoteDo bucket))

/-- A sweep pass (R123). -/
def execSettledSweep (s : State) : StepResult := .next (live settledSweepDo s)

/-- DRAIN_LIMIT of a DRAINING slot (R163). -/
def execSlotExpire (slot : Nat) (s : State) : StepResult := onIdx .slot slot s (live (slotExpireDo slot))

/-- A slot without holders becomes FREE (R163). -/
def execSlotFree (slot : Nat) (s : State) : StepResult := onIdx .slot slot s (live (slotFreeDo slot))

/-- Retired content is reclaimed (R164). -/
def execReclaim (s : State) : StepResult := .next (live reclaimDo s)

end Sys2Proof.Machine
end

