-- ==== Sys2Proof/Machine/Dispatch.lean ====
section
/-! DEFINITION. Machine/Dispatch.lean: the meaning of each command, one arm per constructor of Instr. -/

namespace Sys2Proof.Machine

open Sys2Proof

def exec (i : Instr) (s : State) : Host.Outcome State Fault Refusal :=
  match i with
  | .nop r f => Sys2Proof.Machine.execNop r f s
  | .getInfo r f => Sys2Proof.Machine.execGetInfo r f s
  | .read r f => Sys2Proof.Machine.execRead r f s
  | .write r f => Sys2Proof.Machine.execWrite r f s
  | .writeMasked r f => Sys2Proof.Machine.execWriteMasked r f s
  | .writeList r f => Sys2Proof.Machine.execWriteList r f s
  | .readDma r f => Sys2Proof.Machine.execReadDma r f s
  | .commit r f => Sys2Proof.Machine.execCommit r f s
  | .discardStaged r f => Sys2Proof.Machine.execDiscardStaged r f s
  | .emInsert r f => Sys2Proof.Machine.execEmInsert r f s
  | .emDelete r f => Sys2Proof.Machine.execEmDelete r f s
  | .emLookup r f => Sys2Proof.Machine.execEmLookup r f s
  | .ruleInsert r f => Sys2Proof.Machine.execRuleInsert r f s
  | .ruleDelete r f => Sys2Proof.Machine.execRuleDelete r f s
  | .objRelease r f => Sys2Proof.Machine.execObjRelease r f s
  | .hitHarvest r f => Sys2Proof.Machine.execHitHarvest r f s
  | .learnAck r f => Sys2Proof.Machine.execLearnAck r f s
  | .tallyReadClear r f => Sys2Proof.Machine.execTallyReadClear r f s
  | .versionCommit r f => Sys2Proof.Machine.execVersionCommit r f s
  | .versionCommitResume => Sys2Proof.Machine.execVersionCommitResume s
  | .versionCommitTimeout => Sys2Proof.Machine.execVersionCommitTimeout s
  | .versionDiscard r f => Sys2Proof.Machine.execVersionDiscard r f s
  | .versionPrepare r f => Sys2Proof.Machine.execVersionPrepare r f s
  | .flockVersionCommit r f => Sys2Proof.Machine.execFlockVersionCommit r f s
  | .flockCommitResend => Sys2Proof.Machine.execFlockCommitResend s
  | .recorderRead r f => Sys2Proof.Machine.execRecorderRead r f s
  | .recorderClear r f => Sys2Proof.Machine.execRecorderClear r f s
  | .faultAck r f => Sys2Proof.Machine.execFaultAck r f s
  | .faultInject r f => Sys2Proof.Machine.execFaultInject r f s
  | .unitReset r f => Sys2Proof.Machine.execUnitReset r f s
  | .deviceReset r f => Sys2Proof.Machine.execDeviceReset r f s
  | .deviceResetBegin => Sys2Proof.Machine.execDeviceResetBegin s
  | .identChallenge r f => Sys2Proof.Machine.execIdentChallenge r f s
  | .custodySet r f => Sys2Proof.Machine.execCustodySet r f s
  | .admitMember r f => Sys2Proof.Machine.execAdmitMember r f s
  | .collectWrite r f => Sys2Proof.Machine.execCollectWrite r f s
  | .packetDiscard ch bytes => Sys2Proof.Machine.execPacketDiscard ch bytes s
  | .relayReplyTimeout k => Sys2Proof.Machine.execRelayReplyTimeout k s
  | .controlPipePacket octet f => Sys2Proof.Machine.execControlPipePacket octet f s
  | .sqTailWrite q tail mem => Sys2Proof.Machine.execSqTailWrite q tail mem s
  | .cqHeadWrite q head => Sys2Proof.Machine.execCqHeadWrite q head s
  | .cmdQueueEnable q sqBase cqBase sqLog2 cqLog2 => Sys2Proof.Machine.execCmdQueueEnable q sqBase cqBase sqLog2 cqLog2 s
  | .cmdQueueDisable q => Sys2Proof.Machine.execCmdQueueDisable q s
  | .inbandCommandTake => Sys2Proof.Machine.execInbandCommandTake s
  | .sbTokenReceive gen mon => Sys2Proof.Machine.execSbTokenReceive gen mon s
  | .sbDataReceive d => Sys2Proof.Machine.execSbDataReceive d s
  | .sbClaimReceive src crcOk => Sys2Proof.Machine.execSbClaimReceive src crcOk s
  | .sbTokenTimeout => Sys2Proof.Machine.execSbTokenTimeout s
  | .sbClaimStart => Sys2Proof.Machine.execSbClaimStart s
  | .sbClaimSend => Sys2Proof.Machine.execSbClaimSend s
  | .sbRingFault => Sys2Proof.Machine.execSbRingFault s
  | .romCheckStart => Sys2Proof.Machine.execRomCheckStart s
  | .romCheckDone => Sys2Proof.Machine.execRomCheckDone s
  | .paceSample pen bank => Sys2Proof.Machine.execPaceSample pen bank s
  | .avsReadPoll => Sys2Proof.Machine.execAvsReadPoll s
  | .avsResponse w => Sys2Proof.Machine.execAvsResponse w s
  | .avsNoAckTimeout => Sys2Proof.Machine.execAvsNoAckTimeout s
  | .avsHoldResend => Sys2Proof.Machine.execAvsHoldResend s
  | .ingressFrameStart port w => Sys2Proof.Machine.execIngressFrameStart port w s
  | .headerWindowComplete port => Sys2Proof.Machine.execHeaderWindowComplete port s
  | .penComplete port seq => Sys2Proof.Machine.execPenComplete port seq s
  | .raceTimeout port => Sys2Proof.Machine.execRaceTimeout port s
  | .foldChainCell frame => Sys2Proof.Machine.execFoldChainCell frame s
  | .ingressFrameEnd port => Sys2Proof.Machine.execIngressFrameEnd port s
  | .pauseTimerExpiry port prio => Sys2Proof.Machine.execPauseTimerExpiry port prio s
  | .flowControlFrameSend port => Sys2Proof.Machine.execFlowControlFrameSend port s
  | .flowControlRefresh port => Sys2Proof.Machine.execFlowControlRefresh port s
  | .preemptVerifyTimer port => Sys2Proof.Machine.execPreemptVerifyTimer port s
  | .preemptVerifyResponse port => Sys2Proof.Machine.execPreemptVerifyResponse port s
  | .gateListChange port => Sys2Proof.Machine.execGateListChange port s
  | .gateEntryChange port => Sys2Proof.Machine.execGateEntryChange port s
  | .schedSelect port express => Sys2Proof.Machine.execSchedSelect port express s
  | .calendarSlotVisit => Sys2Proof.Machine.execCalendarSlotVisit s
  | .egressFrameEnd port express => Sys2Proof.Machine.execEgressFrameEnd port express s
  | .exportFrameFlush => Sys2Proof.Machine.execExportFrameFlush s
  | .tsFifoRead => Sys2Proof.Machine.execTsFifoRead s
  | .linkLoss port => Sys2Proof.Machine.execLinkLoss port s
  | .linkUp port => Sys2Proof.Machine.execLinkUp port s
  | .debounceEnd port => Sys2Proof.Machine.execDebounceEnd port s
  | .portFlushComplete port => Sys2Proof.Machine.execPortFlushComplete port s
  | .holdEnd port => Sys2Proof.Machine.execHoldEnd port s
  | .reqQuotaLimitWrite req limit => Sys2Proof.Machine.execReqQuotaLimitWrite req limit s
  | .polStateWrite pol c e => Sys2Proof.Machine.execPolStateWrite pol c e s
  | .carveBlockJoin block => Sys2Proof.Machine.execCarveBlockJoin block s
  | .foldRecoveryDone => Sys2Proof.Machine.execFoldRecoveryDone s
  | .learnFilterExpiry addr fid => Sys2Proof.Machine.execLearnFilterExpiry addr fid s
  | .strayNoticeDeliver => Sys2Proof.Machine.execStrayNoticeDeliver s
  | .promoterMove bucket => Sys2Proof.Machine.execPromoterMove bucket s
  | .settledSweep => Sys2Proof.Machine.execSettledSweep s
  | .slotExpire slot => Sys2Proof.Machine.execSlotExpire slot s
  | .slotFree slot => Sys2Proof.Machine.execSlotFree slot s
  | .reclaim => Sys2Proof.Machine.execReclaim s
  | .lanePowerReqWrite lane req => Sys2Proof.Machine.execLanePowerReqWrite lane req s
  | .laneStateReached lane => Sys2Proof.Machine.execLaneStateReached lane s
  | .laneCalTimeout lane pll => Sys2Proof.Machine.execLaneCalTimeout lane pll s
  | .laneTxeqWrite lane v => Sys2Proof.Machine.execLaneTxeqWrite lane v s
  | .laneRxeqAdaptWrite lane adapt => Sys2Proof.Machine.execLaneRxeqAdaptWrite lane adapt s
  | .prbsClear lane => Sys2Proof.Machine.execPrbsClear lane s
  | .flockLaneGroupEnd lane txStuff rxStuff viol hdrErr => Sys2Proof.Machine.execFlockLaneGroupEnd lane txStuff rxStuff viol hdrErr s
  | .amMarkerReceive lane good seq arrival => Sys2Proof.Machine.execAmMarkerReceive lane good seq arrival s
  | .superframeStart octet start tick => Sys2Proof.Machine.execSuperframeStart octet start tick s
  | .overheadBlockReceive octet ctrl faw rest x slots fillers => Sys2Proof.Machine.execOverheadBlockReceive octet ctrl faw rest x slots fillers s
  | .flockDefectDeclare octet defect => Sys2Proof.Machine.execFlockDefectDeclare octet defect s
  | .flockDefectClear octet defect => Sys2Proof.Machine.execFlockDefectClear octet defect s
  | .linkPageSwitch octet => Sys2Proof.Machine.execLinkPageSwitch octet s
  | .txPageSwitch octet => Sys2Proof.Machine.execTxPageSwitch octet s
  | .rxPageSwitch octet => Sys2Proof.Machine.execRxPageSwitch octet s
  | .todSetSet sec ns frac => Sys2Proof.Machine.execTodSetSet sec ns frac s
  | .todSetStep step => Sys2Proof.Machine.execTodSetStep step s
  | .servoInWrite offset => Sys2Proof.Machine.execServoInWrite offset s
  | .servoHoldover => Sys2Proof.Machine.execServoHoldover s
  | .trefLoss => Sys2Proof.Machine.execTrefLoss s
  | .trefLock => Sys2Proof.Machine.execTrefLock s
  | .ppsEdge falling => Sys2Proof.Machine.execPpsEdge falling s
  | .toutEdge n => Sys2Proof.Machine.execToutEdge n s
  | .toutPulseEnd n => Sys2Proof.Machine.execToutPulseEnd n s
  | .timeRecordSend => Sys2Proof.Machine.execTimeRecordSend s
  | .timeRecordReceive octet record errored => Sys2Proof.Machine.execTimeRecordReceive octet record errored s
  | .hostRxDeliver ring => Sys2Proof.Machine.execHostRxDeliver ring s
  | .hostRingHoldExpiry ring => Sys2Proof.Machine.execHostRingHoldExpiry ring s
  | .ringTailWrite door place tail mem => Sys2Proof.Machine.execRingTailWrite door place tail mem s
  | .rxRingEnable ring => Sys2Proof.Machine.execRxRingEnable ring s
  | .rxRingDisable ring => Sys2Proof.Machine.execRxRingDisable ring s
  | .txRingDisable ring => Sys2Proof.Machine.execTxRingDisable ring s
  | .hostTxFetch => Sys2Proof.Machine.execHostTxFetch s
  | .recordDescriptorWrite ring => Sys2Proof.Machine.execRecordDescriptorWrite ring s
  | .hostDmaError fn ring addr => Sys2Proof.Machine.execHostDmaError fn ring addr s
  | .vectorNotify v => Sys2Proof.Machine.execVectorNotify v s
  | .vectorHoldoffExpiry v => Sys2Proof.Machine.execVectorHoldoffExpiry v s
  | .vectorUnmask w => Sys2Proof.Machine.execVectorUnmask w s
  | .perstNAssert => Sys2Proof.Machine.execPerstNAssert s
  | .musterTick => Sys2Proof.Machine.execMusterTick s
  | .musterDumpComplete => Sys2Proof.Machine.execMusterDumpComplete s
  | .musterChunkResend => Sys2Proof.Machine.execMusterChunkResend s
  | .shepherdChallenge d => Sys2Proof.Machine.execShepherdChallenge d s
  | .challengeReply d params => Sys2Proof.Machine.execChallengeReply d params s
  | .challengeTimeout d => Sys2Proof.Machine.execChallengeTimeout d s
  | .escalationExpiry src => Sys2Proof.Machine.execEscalationExpiry src s
  | .escalationTimerStop src => Sys2Proof.Machine.execEscalationTimerStop src s
  | .bellwetherToggle => Sys2Proof.Machine.execBellwetherToggle s
  | .tempHigh => Sys2Proof.Machine.execTempHigh s
  | .tempTrip => Sys2Proof.Machine.execTempTrip s
  | .recordClose seq => Sys2Proof.Machine.execRecordClose seq s
  | .flashProgramDone => Sys2Proof.Machine.execFlashProgramDone s
  | .flashOpFail block erase => Sys2Proof.Machine.execFlashOpFail block erase s
  | .flashCompaction => Sys2Proof.Machine.execFlashCompaction s
  | .flashPatrol found => Sys2Proof.Machine.execFlashPatrol found s
  | .flashFail cause => Sys2Proof.Machine.execFlashFail cause s
  | .logRestore => Sys2Proof.Machine.execLogRestore s
  | .resetNAssert => Sys2Proof.Machine.execResetNAssert s
  | .resetNDeassert role devid => Sys2Proof.Machine.execResetNDeassert role devid s
  | .fusesLoaded => Sys2Proof.Machine.execFusesLoaded s
  | .crookStart => Sys2Proof.Machine.execCrookStart s
  | .selfTestDone failed => Sys2Proof.Machine.execSelfTestDone failed s
  | .laneCalibrationDone lanes plls => Sys2Proof.Machine.execLaneCalibrationDone lanes plls s
  | .logAvailable => Sys2Proof.Machine.execLogAvailable s
  | .deviceReady => Sys2Proof.Machine.execDeviceReady s
  | .versionPrepareResume => Sys2Proof.Machine.execVersionPrepareResume s
  | .versionPrepareTimeout => Sys2Proof.Machine.execVersionPrepareTimeout s
  | .flockPrepareTimeout => Sys2Proof.Machine.execFlockPrepareTimeout s
  | .collectReplyTimeout => Sys2Proof.Machine.execCollectReplyTimeout s
  | .perstNDeassert => Sys2Proof.Machine.execPerstNDeassert s
  | .txRingEnable ring => Sys2Proof.Machine.execTxRingEnable ring s
  | .tempHighClear => Sys2Proof.Machine.execTempHighClear s
  | .prbsLock lane => Sys2Proof.Machine.execPrbsLock lane s
  | .prbsLockLoss lane errs => Sys2Proof.Machine.execPrbsLockLoss lane errs s
  | .oversizeCutOff port => Sys2Proof.Machine.execOversizeCutOff port s
  | .powerLoss => Sys2Proof.Machine.execPowerLoss s

end Sys2Proof.Machine
end

