-- ==== Sys2Proof/Machine/Tick.lean ====
section
/-! DEFINITION. Machine/Tick.lean: one nanosecond of the TREF count: the FRC, the ToD, and the performance counters in
level mode (R226, R233). -/

namespace Sys2Proof.Machine

open Sys2Proof

/-- The condition of an event of Table TM-14 holds for an instance; the events without a condition occur and are over.
DESIGN CHOICE, log entry 48. -/
def levelHolds (unit ev inst : Nat) (s : State) : Bool :=
  match unit, ev with
  | 0x01, 0x03 => s.get F.portSched_PAUSED_TC inst != 0
  | 0x04, 0x02 => s.frames.any fun f => f.loc == .pen && f.pen == some inst
  | 0x0A, 0x02 => decide (sharedFree s ≤ 0)
  | _, _ => false

/-- Every counter in level mode whose condition holds counts the present nanosecond, once. -/
def levelCounts (s : State) : State :=
  (s.listed .perfSel).foldl (fun s c =>
    if s.on F.perfSel_LEVEL c && levelHolds (s.get F.perfSel_UNIT c) (s.get F.perfSel_EVENT c) (s.get F.perfSel_INST c) s then
      perfCount c 1 s
    else s) s

/-- What happens where no command waits: a nanosecond passes, unless RESET_N is asserted. DESIGN CHOICE, log entry 4. -/
def tickDo (s : State) : State := if s.sys.inReset then s else tick (levelCounts s)

end Sys2Proof.Machine
end

