-- ==== Sys2Proof/Machine/Step.lean ====
section
/-! DEFINITION. Machine/Step.lean: one step of the block: the command at the front of its queue, or a nanosecond. -/

namespace Sys2Proof.Machine

open Sys2Proof

/-- The command at the front of the queue is taken and runs with the rest of the queue; on an empty queue a nanosecond of
the TREF count passes. DESIGN CHOICE, log entries 2, 4. DEDUCED, log entry 94. -/
def step (s : State) : Host.Outcome State Fault Refusal :=
  match s.pending with
  | [] => .next (tickDo s)
  | c :: cs => exec c { s with pending := cs }

/-- The state with the command that a word spells at the front of its queue; unchanged where the word spells none.
DESIGN CHOICE, log entry 1. -/
def State.withFetchWord (s : State) (nbits w : Nat) : State :=
  match decodeTableWord nbits w with
  | some c => { s with pending := c :: s.pending }
  | none => s

end Sys2Proof.Machine
end

