-- ==== Sys2Proof/WellFormed.lean ====
section
/-! DEFINITION. WellFormed.lean: what a command must be to name something that exists: element numbers within the device
(R6 and the class tables), a packet whose header fits its contents (R268, R269), a channel that exists. -/

namespace Sys2Proof

/-- The elements a command numbers, each with how many the device has. -/
def Instr.elements : Instr → List (Nat × Nat)
  | .sqTailWrite q _ _ | .cqHeadWrite q _ | .cmdQueueEnable q _ _ _ _ | .cmdQueueDisable q => [(q, 64)]
  | .ingressFrameStart p _ | .ingressFrameEnd p | .oversizeCutOff p | .flowControlFrameSend p | .flowControlRefresh p
  | .preemptVerifyTimer p | .preemptVerifyResponse p | .gateListChange p | .gateEntryChange p | .egressFrameEnd p _
  | .linkLoss p | .linkUp p | .debounceEnd p | .portFlushComplete p | .holdEnd p => [(p, 1024)]
  | .pauseTimerExpiry p i => [(p, 1024), (i, 8)]
  | .headerWindowComplete p | .raceTimeout p => [(p, 1026)]
  | .penComplete p q => [(p, 1026), (q, 65536)]
  | .schedSelect p _ => [(p, 1028)]
  | .reqQuotaLimitWrite r _ => [(r, 8196)]
  | .polStateWrite p _ _ => [(p, 262144)]
  | .carveBlockJoin b => [(b, 256)]
  | .learnFilterExpiry _ f => [(f, 16384)]
  | .promoterMove b => [(b, 1310720)]
  | .slotExpire n | .slotFree n => [(n, 4)]
  | .lanePowerReqWrite l _ | .laneStateReached l | .laneCalTimeout l _ | .laneTxeqWrite l _ | .laneRxeqAdaptWrite l _
  | .prbsClear l | .prbsLock l | .prbsLockLoss l _ | .flockLaneGroupEnd l _ _ _ _ => [(l, 1024)]
  | .amMarkerReceive l _ q _ => [(l, 1024), (q, 65536)]
  | .superframeStart o _ _ | .linkPageSwitch o | .txPageSwitch o | .rxPageSwitch o
  | .timeRecordReceive o _ _ | .controlPipePacket o _ => [(o, 128)]
  | .overheadBlockReceive o _ _ _ _ slots _ => (o, 128) :: slots.map fun e => (e.1, 128)
  | .flockDefectDeclare o d | .flockDefectClear o d => [(o, 128), (d, 5)]
  | .toutEdge n | .toutPulseEnd n => [(n, 8)]
  | .hostRxDeliver r | .hostRingHoldExpiry r | .txRingEnable r | .txRingDisable r => [(r, 256)]
  | .rxRingEnable r | .rxRingDisable r | .recordDescriptorWrite r => [(r, 257)]
  | .ringTailWrite (.command tx) r _ _ => [(r, if tx then 256 else 257)]
  | .ringTailWrite (.doorbell fn) offset _ _ => [(fn, 4), (offset, 2 ^ 20)]
  | .hostDmaError fn _ _ => [(fn, 4)]
  | .vectorNotify v | .vectorHoldoffExpiry v | .vectorUnmask ⟨v, _, _⟩ => [(v, 2048)]
  | .shepherdChallenge d | .challengeReply d _ | .challengeTimeout d => [(d, 1024)]
  | .sbClaimReceive d _ => [(d, 1024)]
  | .sbDataReceive d => [(d.dst, 1024), (d.src, 1024)]
  | .escalationExpiry n | .escalationTimerStop n => [(n, 64)]
  | .flashOpFail b _ => [(b, 16384)]
  | .flashPatrol fs => fs.map fun f => (f.block, 16384)
  | .laneCalibrationDone ls ps => ls.map (fun l => (l, 1024)) ++ ps.map fun o => (o, 128)
  | .nop _ _ | .getInfo _ _ | .read _ _ | .write _ _ | .writeMasked _ _ | .writeList _ _ | .readDma _ _ | .commit _ _
  | .discardStaged _ _ | .emInsert _ _ | .emDelete _ _ | .emLookup _ _ | .ruleInsert _ _ | .ruleDelete _ _
  | .objRelease _ _ | .hitHarvest _ _ | .learnAck _ _ | .tallyReadClear _ _ | .versionCommit _ _ | .versionCommitResume
  | .versionCommitTimeout | .versionDiscard _ _ | .versionPrepare _ _ | .flockVersionCommit _ _ | .flockCommitResend
  | .recorderRead _ _ | .recorderClear _ _ | .faultAck _ _ | .faultInject _ _ | .unitReset _ _ | .deviceReset _ _
  | .deviceResetBegin | .identChallenge _ _ | .custodySet _ _ | .admitMember _ _ | .collectWrite _ _
  | .packetDiscard _ _ | .relayReplyTimeout _ | .inbandCommandTake | .sbTokenReceive _ _ | .sbTokenTimeout
  | .sbClaimStart | .sbClaimSend | .sbRingFault | .romCheckStart | .romCheckDone | .paceSample _ _ | .avsReadPoll
  | .avsResponse _ | .avsNoAckTimeout | .avsHoldResend | .foldChainCell _ | .calendarSlotVisit | .exportFrameFlush
  | .tsFifoRead | .foldRecoveryDone | .strayNoticeDeliver | .settledSweep | .reclaim | .todSetSet _ _ _ | .todSetStep _
  | .servoInWrite _ | .servoHoldover | .trefLoss | .trefLock | .ppsEdge _ | .timeRecordSend | .hostTxFetch
  | .perstNAssert | .musterTick | .musterDumpComplete | .musterChunkResend | .bellwetherToggle | .tempHigh | .tempTrip
  | .recordClose _ | .flashProgramDone | .flashCompaction | .flashFail _ | .logRestore | .resetNAssert
  | .resetNDeassert _ _ | .fusesLoaded | .crookStart | .selfTestDone _ | .logAvailable | .deviceReady
  | .versionPrepareResume | .versionPrepareTimeout | .flockPrepareTimeout | .collectReplyTimeout | .perstNDeassert
  | .tempHighClear | .powerLoss => []

/-- The request of a command that a packet carries. -/
def Instr.request : Instr → Option (Request × Fetch)
  | .nop r f | .getInfo r f | .read r f | .write r f | .writeMasked r f | .writeList r f | .readDma r f | .commit r f
  | .discardStaged r f | .emInsert r f | .emDelete r f | .emLookup r f | .ruleInsert r f | .ruleDelete r f
  | .objRelease r f | .hitHarvest r f | .learnAck r f | .tallyReadClear r f | .versionCommit r f | .versionDiscard r f
  | .versionPrepare r f | .flockVersionCommit r f | .recorderRead r f | .recorderClear r f | .faultAck r f
  | .faultInject r f | .unitReset r f | .deviceReset r f | .identChallenge r f | .custodySet r f | .admitMember r f
  | .collectWrite r f => some (r, f)
  | _ => none

/-- A channel of the device: queue, port, station or octet exist; the reply buffer is 8-byte aligned; the tags are those of
at most two VLAN layers. -/
def Channel.ok : Channel → Bool
  | .pcie q c a n _ => q < 64 && c % 8 == 0 && c < 2 ^ 64 && a % 8 == 0 && a < 2 ^ 64 && n < 2 ^ 14
  | .inband p _ ts => p < 1024 && (ts.length == 0 || ts.length == 4 || ts.length == 8)
  | .sideband d => d < 1024
  | .flock o => o < 128

/-- A packet that its header describes: VER and the header's length agree, LEN counts the parameters, and a trailer is there
exactly with AUTH (Tables CP-3 to CP-5). -/
def Packet.ok (p : Packet) : Bool :=
  let h := p.hdr.toNat
  let flags := if p.v2 then h / 2 ^ 216 else h / 2 ^ 108
  let len := if p.v2 then h / 2 ^ 165 else h / 2 ^ 73
  (if p.v2 then h / 2 ^ 252 == 2 else h / 2 ^ 124 == 1) && len % 2048 == p.params.length && p.params.length ≤ 1024 &&
    p.trailer.isSome == (flags / 8 % 2 == 1)

/-- A command stops after parts that it can have: a packet names fewer than 2,048 of them (R270, R277). -/
def Fetch.ok (f : Fetch) : Bool := f.parts.all (· < 2048) && f.partsAgain < 2048

/-- A command is well formed. -/
def Instr.wellFormed (i : Instr) : Bool :=
  (i.elements.all fun e => e.1 < e.2) &&
    match i.request with
    | some (r, f) => r.chan.ok && r.pkt.ok && f.ok
    | none => true

end Sys2Proof
end

