-- ==== Sys2Proof/Safety.lean ====
section
/-! DEFINITION. Safety.lean: the terms in which claims about the block are made: the canonical form of its stores, the
block held in reset, and a command of a packet that starts and runs to its answer. -/

namespace Sys2Proof.Machine

open Sys2Proof

/-! ## The form of the stores -/

/-- A sparse map lists its keys strictly rising. -/
abbrev Rising {β : Type} (m : List (Nat × β)) : Prop := m.Pairwise fun a b => a.1 < b.1

/-- The canonical form of a sparse map: keys strictly rising, and no entry at the value that an unlisted key has. -/
abbrev Sparse {β : Type} [DecidableEq β] (d : β) (m : List (Nat × β)) : Prop := Rising m ∧ ∀ e ∈ m, e.2 ≠ d

/-- The canonical form of host memory. -/
abbrev Memory.wf (m : List Host.Cell) : Prop := Sparse hostBlank m

/-- The stores of a state are in their form: objects in rising order, live and staged, and host memory canonical. -/
abbrev Canonical (s : State) : Prop := Rising s.live ∧ Rising s.staged ∧ Memory.wf s.hostMem

/-! ## Held in reset (R365) -/

/-- RESET_N is asserted, with what R365 says of it: BELLWETHER low, FAULT_N released, no command accepted or held, the PCIe
link down; and no frame is inside the device. -/
structure HeldInReset (s : State) : Prop where
  asserted : s.sys.inReset = true
  bellwether : s.sys.bellwether = false
  faultN : s.sys.faultN = false
  commands : s.crook.held = []
  frames : s.frames = []
  link : pcieUp s = false

/-- The rows that act while RESET_N is asserted: those of the reset balls and of the supplies. DEDUCED, log entry 88. -/
def Instr.actsInReset : Instr → Bool
  | .resetNDeassert _ _ | .perstNAssert | .perstNDeassert | .powerLoss => true
  | _ => false

/-! ## Events -/

/-- Events of the device happen: RESET_N is deasserted. -/
abbrev Awake (s : State) : Prop := s.sys.inReset = false

/-- Events of the frame path happen: RESET_N is deasserted, and no fatal fault is declared. -/
abbrev PathAwake (s : State) : Prop := s.sys.inReset = false ∧ s.flt.fatal = false

/-- The rows of the frame path, which a fatal fault stops (R329). DEDUCED, log entry 89. -/
def Instr.framePath : Instr → Bool
  | .ingressFrameStart _ _ | .headerWindowComplete _ | .penComplete _ _ | .raceTimeout _ | .foldChainCell _
  | .ingressFrameEnd _ | .oversizeCutOff _ | .flowControlFrameSend _ | .flowControlRefresh _ | .preemptVerifyTimer _
  | .preemptVerifyResponse _ | .schedSelect _ _ | .egressFrameEnd _ _ | .exportFrameFlush | .hostRxDeliver _
  | .hostRingHoldExpiry _ | .hostTxFetch | .inbandCommandTake => true
  | _ => false

/-! ## Elements -/

/-- The rows that act on the element that they number first; the others take a list of elements, or a key. -/
def Instr.actsOnOne : Instr → Bool
  | .learnFilterExpiry _ _ | .flashOpFail _ _ | .flashPatrol _ | .laneCalibrationDone _ _ | .sbClaimReceive _ _
  | .sbDataReceive _ => false
  | _ => true

/-! ## Commands of packets -/

/-- A held command as it stands in the context in which it starts. -/
def Held.inCtx (h : Held) (ctx : Nat) : Held := { h with ctx := some ctx }

/-- The state in which a held command has started in a context, its microsteps having met no error. -/
def begun (h : Held) (ctx : Nat) (s : State) : State :=
  waitsAt ctx h.req.pkt.opcode (startIn h.n ctx (fencePassed h s))

/-- A command that started in a state ends with an answer in another: the COMMITs that wait keep the staged values of their
acceptance (R10), and the reply goes out (R272). -/
def answered (h : Held) (start : State) (a : Answer) (t : State) : State := settleOwn h.n a.1 a.2 (trackLate h.n start t)

/-- The command h of a request is held and may start in a context, and nothing refuses it: the crook is up, the packet is the
oldest one of its channel that has not started, its stream and the table-content rules let it start (R273 to R275, R361), no
fence before it is broken, this device alone executes it or it is a flock-wide commit, the checks of R271 pass, and its longest reply fits (R284). -/
structure Starts (r : Request) (h : Held) (ctx : Nat) (s : State) : Prop where
  awake : Awake s
  up : crookUp s = true
  request : r.pkt.isReply = false
  held : waiting r s = some h
  room : freeContext s = some ctx
  order : mayStart' h s = true
  unbroken : fenceBroken h s = false
  mine : elsewhere h.req.pkt (begun h ctx s) = false
  alone : isFlockCommit h.req.pkt (begun h ctx s) = true ∨
    (shepherd (begun h ctx s) && h.req.pkt.v2 && h.req.pkt.bcast) = false
  admitted : admitWaits h.req.pkt s = false
  allowed : verdict (h.inCtx ctx) (begun h ctx s) = none
  fits : lacksRoom (h.inCtx ctx) (begun h ctx s) = none

end Sys2Proof.Machine
end

