-- ==== Sys2Proof/Certificates/Slice0/Obligations.lean ====
section
/-! DEFINITION. Certificates/Slice0/Obligations.lean: the statements about the model that are put to the provers. A statement
that says what a command does gives the whole next state; what that state does not name is unchanged. -/

open Sys2Proof Sys2Proof.Machine

/-! ## Steps, queue and operands -/

/-- A step at a queue that holds a command takes the command at the front and is exec of it, with the queue's rest. -/
def Obligations.StepTakesTheFront : Prop :=
  ∀ (c : Instr) (cs : List Instr) (s : State), s.pending = c :: cs → step s = exec c { s with pending := cs }

/-- On an empty queue one nanosecond passes: the FRC goes up by 1 and the ToD advances, while every object outside the
performance counters, the frames, the host memory and the outgoing trace stay; while RESET_N is asserted nothing moves. That an
empty queue is a nanosecond is the model's choice (assumption 4); what a nanosecond does to the FRC is R233. -/
def Obligations.IdleStepIsANanosecond : Prop :=
  ∀ s : State, s.pending = [] →
    (Awake s → ∃ t, step s = .next t ∧ t.time.frc = s.time.frc + 1 ∧
      t.time.tod = (((s.time.tod : Int) + todUnit + s.time.adj) % (todPeriod : Int)).toNat ∧
      (∀ c i, c ≠ .perfCnt → i < 2 ^ 32 → t.obj c i = s.obj c i) ∧ t.staged = s.staged ∧ t.frames = s.frames ∧
      t.hostMem = s.hostMem ∧ t.out = s.out) ∧
    (s.sys.inReset = true → step s = .next s)

/-- Every command answers a next state, whatever the state and its operands; one that numbers an element which the device does
not have changes nothing, which is the model's choice (assumption 5). -/
def Obligations.CommandsComplete : Prop :=
  ∀ (i : Instr) (s : State), (∃ t, exec i s = .next t) ∧
    (Sys2Proof.Machine.Instr.actsOnOne i = true → (∃ e ∈ i.elements.head?, e.2 ≤ e.1) → exec i s = .next s)

/-! ## Reset (R7, R159, R365) -/

/-- While RESET_N is asserted it stays so, with all that R365 says of it, through every step that does not deassert it:
every other command and every nanosecond. -/
def Obligations.ResetHolds : Prop :=
  ∀ s t : State, HeldInReset s → (∀ role devid cs, s.pending ≠ .resetNDeassert role devid :: cs) →
    step s = .next t → HeldInReset t

/-- RESET_N asserted, and a loss of the supplies, leave the device held in reset, whether it was awake or held already. -/
def Obligations.ResetBegins : Prop :=
  ∀ s : State, Awake s ∨ HeldInReset s →
    (∃ t, exec .resetNAssert s = .next t ∧ HeldInReset t) ∧ (∃ t, exec .powerLoss s = .next t ∧ HeldInReset t)

/-- After reset slot 0 is CURRENT with version 0 and S is 1, and a COMMIT of unit VERSIONS whose COMMIT_TIMEOUT or DRAIN_LIMIT
is out of range completes with BAD_PARAM and changes nothing (R159). -/
def Obligations.VersionsAfterReset : Prop :=
  State.reset.get F.versionStatus_CURRENT 0 = 0 ∧ State.reset.get F.slot_STATE 0 = 1 ∧ State.reset.get F.slot_VER 0 = 0 ∧
    State.reset.get F.versionStatus_STAGED_VER 0 = 1 ∧
    ∀ s : State,
      (s.getSt F.versionCfg_COMMIT_TIMEOUT 0 < 1 ∨ 1000000 < s.getSt F.versionCfg_COMMIT_TIMEOUT 0 ∨
        s.getSt F.versionCfg_DRAIN_LIMIT 0 < 10 ∨ 100000 < s.getSt F.versionCfg_DRAIN_LIMIT 0) →
      commitUnit 0x09 [] s = (stBadParam, s)

/-! ## Commands of packets (R271 to R279, R292)

Each says what a command that starts in a context does (Starts), and the packet and status that it answers with; answered is the
reply by the channel of the command, begun the state in which the command has taken its context. -/

/-- NOP answers its own parameters; GET_INFO answers SERIAL, BOOT_NONCE, the identity word, and the high values of both
replay windows; neither changes anything. -/
def Obligations.NopAndGetInfoAnswer : Prop :=
  ∀ (r : Request) (h : Held) (ctx : Nat) (s : State), Starts r h ctx s →
    (r.pkt.opcode = opNop →
      exec (.nop r .clean) s = .next (answered h (begun h ctx s) (stOk, r.pkt.params) (begun h ctx s))) ∧
    (r.pkt.opcode = opGetInfo →
      exec (.getInfo r .clean) s = .next (answered h (begun h ctx s) (stOk,
        [Config.serial.extractLsb' 64 64, Config.serial.extractLsb' 0 64, Config.bootNonce s.sys.boots,
          BitVec.ofNat 64 (s.get F.crookId_ROM_ID 0 * 2 ^ 32 + s.sys.devid % 1024 * 2 ^ 16 + s.get F.roleCfg_ROLE 0 * 2 ^ 14 + 3),
          BitVec.ofNat 64 s.crook.winH.high, BitVec.ofNat 64 s.crook.winS.high]) (begun h ctx s)))

/-- READ answers the words of COUNT objects from OBJ on, READ_DMA writes them to host memory and answers their bytes,
HIT_HARVEST answers or writes the words of HIT_WORD that it reads, which clears them; an uncorrectable word aborts each. -/
def Obligations.ReadsAnswerWords : Prop :=
  ∀ (r : Request) (h : Held) (ctx : Nat) (s t : State) (c : Cls) (i k : Nat) (ws : List Word), Starts r h ctx s →
    (r.pkt.opcode = opRead → objectsOf r.pkt = some (c, i, k) →
      (readMany r.pkt.staged c k i (begun h ctx s) = (some ws, t) →
        exec (.read r .clean) s = .next (answered h (begun h ctx s) (stOk, ws) t)) ∧
      (readMany r.pkt.staged c k i (begun h ctx s) = (none, t) →
        exec (.read r .clean) s = .next (answered h (begun h ctx s) (stAborted, []) t))) ∧
    (r.pkt.opcode = opReadDma → objectsOf r.pkt = some (c, i, k) →
      (readMany r.pkt.staged c k i (begun h ctx s) = (some ws, t) →
        exec (.readDma r .clean) s = .next (answered h (begun h ctx s) (stOk, [BitVec.ofNat 64 (8 * ws.length)])
          (dmaWords (pw r.pkt 0) ws t))) ∧
      (readMany r.pkt.staged c k i (begun h ctx s) = (none, t) →
        exec (.readDma r .clean) s = .next (answered h (begun h ctx s) (stAborted, []) t))) ∧
    (r.pkt.opcode = opHitHarvest →
      (readMany false .hitWord (pw r.pkt 0 % 2 ^ 32) (pw r.pkt 0 / 2 ^ 32) (begun h ctx s) = (some ws, t) →
        exec (.hitHarvest r .clean) s = .next (if pw r.pkt 1 = 0 then answered h (begun h ctx s) (stOk, ws) t
          else answered h (begun h ctx s) (stOk, []) (dmaWords (pw r.pkt 1) ws t))) ∧
      (readMany false .hitWord (pw r.pkt 0 % 2 ^ 32) (pw r.pkt 0 / 2 ^ 32) (begun h ctx s) = (none, t) →
        exec (.hitHarvest r .clean) s = .next (answered h (begun h ctx s) (stAborted, []) t)))

/-- WRITE makes the writes of COUNT objects from OBJ on, all or none; WRITE_MASKED writes one object under its mask;
WRITE_LIST without ATOMIC makes the writes of each unit in turn, and with ATOMIC makes them where the check of every unit
passes, and none where one fails (R277 to R279). -/
def Obligations.WritesTakeEffect : Prop :=
  ∀ (r : Request) (h : Held) (ctx : Nat) (s t : State) (st : Nat), Starts r h ctx s →
    (r.pkt.opcode = opWrite → isCollect r.pkt = false → writePart (writesOf r.pkt) (begun h ctx s) = (st, t) →
      exec (.write r .clean) s = .next (answered h (begun h ctx s) (st, []) t)) ∧
    (∀ c i k, r.pkt.opcode = opWriteMasked → objectsOf r.pkt = some (c, i, k) →
      writePart [(c, i, ofWords (r.pkt.params.take (objWords c)),
        ofWords ((r.pkt.params.drop (objWords c)).take (objWords c)))] (begun h ctx s) = (st, t) →
      exec (.writeMasked r .clean) s = .next (answered h (begun h ctx s) (st, []) t)) ∧
    (∀ ws sts, r.pkt.opcode = opWriteList → listWrites r.pkt = some ws →
      (r.pkt.atomic = false →
        runParts (fun u s => writePart (ws.filter fun w => w.1.row.unit == u) s) (writeUnits ws) (begun h ctx s) = (sts, t) →
        exec (.writeList r .clean) s = .next (answered h (begun h ctx s) (multiAnswer sts) t)) ∧
      (r.pkt.atomic = true →
        ((writeUnits ws).any fun u => lookD stOk (listChecks ws (begun h ctx s)) u != stOk) = true →
        exec (.writeList r .clean) s = .next (answered h (begun h ctx s)
          (stUnitFailed, multiWords [] ((writeUnits ws).map fun u => (u, lookD stOk (listChecks ws (begun h ctx s)) u)))
          (begun h ctx s))) ∧
      (r.pkt.atomic = true → (∀ u ∈ writeUnits ws, lookD stOk (listChecks ws (begun h ctx s)) u = stOk) →
        runParts (fun u s => writePart (ws.filter fun w => w.1.row.unit == u) s) (writeUnits ws) (begun h ctx s) = (sts, t) →
        exec (.writeList r .clean) s = .next (answered h (begun h ctx s) (multiAnswer sts) t)))

/-- A COMMIT of one unit applies its staged settings where the check of the unit passes; else it completes with BAD_PARAM and
changes nothing. With a bitmap the parts run one unit at a time; with ATOMIC all are applied where every check passes, and none
where one fails. DISCARD_STAGED returns the staged copies of one unit or of each unit of a bitmap to the live values. -/
def Obligations.CommitAndDiscardTakeEffect : Prop :=
  ∀ (r : Request) (h : Held) (ctx : Nat) (s t : State) (us : List Nat) (sts : List (Nat × Nat)), Starts r h ctx s →
    (∀ u, r.pkt.opcode = opCommit → unitsOf' r.pkt = some ([u], false) →
      exec (.commit r .clean) s = .next (settleLog (
        if unitOk u [u] (atAcceptance h.late (begun h ctx s)) then
          answered h (begun h ctx s) (stOk, []) (applyUnit u h.late (begun h ctx s))
        else answered h (begun h ctx s) (stBadParam, []) (begun h ctx s)))) ∧
    (r.pkt.opcode = opCommit → unitsOf' r.pkt = some (us, true) → r.pkt.atomic = false →
      runParts (fun u s => commitUnit u h.late s) us (begun h ctx s) = (sts, t) →
      exec (.commit r .clean) s = .next (settleLog (answered h (begun h ctx s) (multiAnswer sts) t))) ∧
    (r.pkt.opcode = opCommit → unitsOf' r.pkt = some (us, true) → r.pkt.atomic = true →
      (∃ u ∈ us, unitOk u us (atAcceptance h.late (begun h ctx s)) = false) →
      exec (.commit r .clean) s = .next (settleLog (answered h (begun h ctx s)
        (stUnitFailed, multiWords [] (us.map fun u =>
          (u, if unitOk u us (atAcceptance h.late (begun h ctx s)) then stOk else stBadParam))) (begun h ctx s)))) ∧
    (r.pkt.opcode = opCommit → unitsOf' r.pkt = some (us, true) → r.pkt.atomic = true →
      (∀ u ∈ us, unitOk u us (atAcceptance h.late (begun h ctx s)) = true) →
      runParts (fun u s => (stOk, applyUnit u h.late s)) us (begun h ctx s) = (sts, t) →
      exec (.commit r .clean) s = .next (settleLog (answered h (begun h ctx s) (multiAnswer sts) t))) ∧
    (∀ u, r.pkt.opcode = opDiscard → unitsOf' r.pkt = some ([u], false) →
      exec (.discardStaged r .clean) s = .next (answered h (begun h ctx s) (stOk, []) (discardUnit u (begun h ctx s)))) ∧
    (r.pkt.opcode = opDiscard → unitsOf' r.pkt = some (us, true) →
      runParts (fun u s => (stOk, discardUnit u s)) us (begun h ctx s) = (sts, t) →
      exec (.discardStaged r .clean) s = .next (answered h (begun h ctx s) (multiAnswer sts) t))

/-- EM_INSERT, EM_DELETE and EM_LOOKUP by key, of a valid table and a key that fits it: an insertion that R125 refuses answers
why and counts a full table in INSERT_FAIL; else the entry is inserted, retired or answered, and one that is not there is
NOT_FOUND. -/
def Obligations.EmCommandsTakeEffect : Prop :=
  ∀ (r : Request) (h : Held) (ctx : Nat) (s t u : State) (loc : EmLoc) (e : EmEntry) (st : Nat), Starts r h ctx s →
    emParamOk r.pkt (begun h ctx s) = true → emEval (emTable' r.pkt) (emKey' r.pkt) (begun h ctx s) = (t, false) →
    (r.pkt.opcode = opEmInsert →
      (emInsertDo (emTable' r.pkt) (emWide' r.pkt) (emKey' r.pkt) (pw r.pkt 0 % 2 ^ 22) (stagedVer t) t = .ok u →
        emFind (emTable' r.pkt) (emKey' r.pkt) (stagedVer t) u = some (loc, e) →
        exec (.emInsert r .clean) s = .next (answered h (begun h ctx s) (stOk, [placeWord loc]) u)) ∧
      (emInsertDo (emTable' r.pkt) (emWide' r.pkt) (emKey' r.pkt) (pw r.pkt 0 % 2 ^ 22) (stagedVer t) t = .error st →
        exec (.emInsert r .clean) s = .next (answered h (begun h ctx s) (st, [])
          (if st = stNoSpace then t.inc F.emStatus_INSERT_FAIL 0 else t)))) ∧
    (r.pkt.opcode = opEmDelete →
      (emFind (emTable' r.pkt) (emKey' r.pkt) (stagedVer t) t = some (loc, e) →
        exec (.emDelete r .clean) s = .next (answered h (begun h ctx s) (stOk, []) (emRetire loc e (stagedVer t) t))) ∧
      (emFind (emTable' r.pkt) (emKey' r.pkt) (stagedVer t) t = none →
        exec (.emDelete r .clean) s = .next (answered h (begun h ctx s) (stNotFound, []) t))) ∧
    (r.pkt.opcode = opEmLookup → bits (pw r.pkt 0) 58 56 = 4 →
      (emFind (emTable' r.pkt) (emKey' r.pkt) (stagedVer t) t = some (loc, e) →
        exec (.emLookup r .clean) s = .next (answered h (begun h ctx s) (stOk, placeWord loc :: entryWords e) t)) ∧
      (emFind (emTable' r.pkt) (emKey' r.pkt) (stagedVer t) t = none →
        exec (.emLookup r .clean) s = .next (answered h (begun h ctx s) (stNotFound, []) t)))

/-- RULE_INSERT writes key and mask of a free rule and makes it valid from S on, a valid one answers BUSY and stays;
RULE_DELETE retires a rule visible in S; OBJ_RELEASE releases an object or answers NOT_FOUND; LEARN_ACK removes the entries of
an address and FID from the pending filter; TALLY_READ_CLEAR answers an entry and clears its bits 213:96. -/
def Obligations.TableCommandsTakeEffect : Prop :=
  ∀ (r : Request) (h : Held) (ctx : Nat) (s t : State), Starts r h ctx s →
    (r.pkt.opcode = opRuleInsert → evalObj .ruleCtrl (ruleIdx r.pkt) (begun h ctx s) = (t, false) →
      exec (.ruleInsert r .clean) s = .next (
        if t.on F.ruleCtrl_VALID (ruleIdx r.pkt) then answered h (begun h ctx s) (stBusy, []) t
        else answered h (begun h ctx s) (stOk, [])
          (let a := (clearUpset .ruleKey (ruleIdx r.pkt) t).setObj .ruleKey (ruleIdx r.pkt) (ofWords ((r.pkt.params.drop 1).take 5))
           let b := (clearUpset .ruleMask (ruleIdx r.pkt) a).setObj .ruleMask (ruleIdx r.pkt) (ofWords ((r.pkt.params.drop 6).take 5))
           ruleInsertDo (ruleIdx r.pkt) (pw r.pkt 0 % 2 ^ 22) (stagedVer b) b))) ∧
    (r.pkt.opcode = opRuleDelete → evalObj .ruleCtrl (ruleIdx r.pkt) (begun h ctx s) = (t, false) →
      exec (.ruleDelete r .clean) s = .next (
        if ruleVisible (ruleIdx r.pkt) (stagedVer t) t then
          answered h (begun h ctx s) (stOk, []) (ruleRetire (ruleIdx r.pkt) (stagedVer t) t)
        else answered h (begun h ctx s) (stNotFound, []) t)) ∧
    (∀ c i, r.pkt.opcode = opObjRelease → decodeOid r.pkt.obj = some (c, i) → evalObj c i (begun h ctx s) = (t, false) →
      (releaseDo c i (stagedVer t) t = none →
        exec (.objRelease r .clean) s = .next (answered h (begun h ctx s) (stNotFound, []) t)) ∧
      (∀ u, releaseDo c i (stagedVer t) t = some u →
        exec (.objRelease r .clean) s = .next (answered h (begun h ctx s) (stOk, []) u))) ∧
    (r.pkt.opcode = opLearnAck →
      (∃ e ∈ s.tab.filter, e.addr = pw r.pkt 0 % 2 ^ 48 ∧ e.fid = bits (pw r.pkt 0) 61 48) →
      ∃ u, exec (.learnAck r .clean) s = .next (answered h (begun h ctx s) (stOk, []) u) ∧
        (∀ e, e ∈ u.tab.filter ↔ e ∈ s.tab.filter ∧ ¬(e.addr = pw r.pkt 0 % 2 ^ 48 ∧ e.fid = bits (pw r.pkt 0) 61 48))) ∧
    (∀ loc e, r.pkt.opcode = opTallyReadClear → (begun h ctx s).on F.emTable_VALID (emTable' r.pkt) = true →
      (begun h ctx s).get F.emTable_KIND (emTable' r.pkt) = 1 →
      emEval (emTable' r.pkt) (pw r.pkt 1 * 2 ^ 64 + pw r.pkt 2) (begun h ctx s) = (t, false) →
      emFind (emTable' r.pkt) (pw r.pkt 1 * 2 ^ 64 + pw r.pkt 2) (currentVer t) t = some (loc, e) →
      exec (.tallyReadClear r .clean) s = .next (answered h (begun h ctx s) (stOk, entryWords e)
        (emWrite loc { e with raw := e.raw - bits e.raw 213 96 * 2 ^ 96 } t)))

/-- VERSION_COMMIT, VERSION_DISCARD and VERSION_PREPARE: an EXPECT that differs from the staged version answers
VERSION_CONFLICT; where the condition of R161 holds, and for a commit where the device is prepared, the commit or prepare is
made at once, else it waits until COMMIT_TIMEOUT after its acceptance at the longest; a prepare of a prepared device answers
BUSY; a discard is made at once. -/
def Obligations.VersionCommandsTakeEffect : Prop :=
  ∀ (r : Request) (h : Held) (ctx : Nat) (s : State), Starts r h ctx s →
    (expectDiffers r.pkt s = true →
      (r.pkt.opcode = opVersionCommit → isFlockCommit r.pkt s = false →
        exec (.versionCommit r .clean) s = .next (answered h (begun h ctx s) (stVersionConflict, []) (begun h ctx s))) ∧
      (r.pkt.opcode = opVersionDiscard →
        exec (.versionDiscard r .clean) s = .next (answered h (begun h ctx s) (stVersionConflict, []) (begun h ctx s))) ∧
      (r.pkt.opcode = opVersionPrepare →
        exec (.versionPrepare r .clean) s = .next (answered h (begun h ctx s) (stVersionConflict, []) (begun h ctx s)))) ∧
    (expectDiffers r.pkt s = false →
      (r.pkt.opcode = opVersionCommit → isFlockCommit r.pkt s = false →
        (s.ver.prepared.isSome = true ∨ commitReady (begun h ctx s) = true) → exec (.versionCommit r .clean) s = .next (answered h (begun h ctx s)
          (stOk, [BitVec.ofNat 64 (commitSlot (begun h ctx s) * 2 ^ 16 + stagedVer s)])
          (commitNow (commitSlot (begun h ctx s)) (begun h ctx s)))) ∧
      (r.pkt.opcode = opVersionCommit → isFlockCommit r.pkt s = false → s.ver.prepared = none →
        commitReady (begun h ctx s) = false →
        exec (.versionCommit r .clean) s = .next (startWait (some h.n) false h.frc (begun h ctx s))) ∧
      (r.pkt.opcode = opVersionDiscard →
        exec (.versionDiscard r .clean) s = .next (answered h (begun h ctx s) (stOk, []) (discardNow (begun h ctx s)))) ∧
      (r.pkt.opcode = opVersionPrepare → s.ver.prepared.isSome = true →
        exec (.versionPrepare r .clean) s = .next (answered h (begun h ctx s) (stBusy, []) (begun h ctx s))) ∧
      (r.pkt.opcode = opVersionPrepare → s.ver.prepared = none → commitReady (begun h ctx s) = true →
        exec (.versionPrepare r .clean) s = .next (answered h (begun h ctx s) (stOk, []) (prepareNow (begun h ctx s)))) ∧
      (r.pkt.opcode = opVersionPrepare → s.ver.prepared = none → commitReady (begun h ctx s) = false →
        exec (.versionPrepare r .clean) s = .next (startWait (some h.n) true h.frc (begun h ctx s))))

/-- RECORDER_READ answers the log's numbers and the records from FIRST_SEQ on, NOT_FOUND where there are none; RECORDER_CLEAR
starts a clear of the log, which answers once it is over; FAULT_ACK acknowledges a source, and answers NOT_FOUND where nothing
is to acknowledge; FAULT_INJECT injects, and answers BAD_PARAM or BUSY where R327 refuses. -/
def Obligations.RecorderAndFaultCommandsTakeEffect : Prop :=
  ∀ (r : Request) (h : Held) (ctx : Nat) (s t : State) (rs : List Rec), Starts r h ctx s →
    (r.pkt.opcode = opRecorderRead →
      (readLog (pw r.pkt 0 % 2 ^ 32) (pw r.pkt 1 % 256) (closedLog (begun h ctx s)) = none →
        exec (.recorderRead r .clean) s =
          .next (answered h (begun h ctx s) (stNotFound, []) (closedLog (begun h ctx s)))) ∧
      (readLog (pw r.pkt 0 % 2 ^ 32) (pw r.pkt 1 % 256) (closedLog (begun h ctx s)) = some rs →
        evalRecords (pw r.pkt 0 % 2 ^ 32) rs.length (closedLog (begun h ctx s)) = (t, false) →
        exec (.recorderRead r .clean) s =
          .next (answered h (begun h ctx s) (stOk, recorderWords rs (closedLog (begun h ctx s))) t))) ∧
    (r.pkt.opcode = opRecorderClear →
      exec (.recorderClear r .clean) s =
        .next (settleLog (trackLate h.n (begun h ctx s) (clearStart h.n (begun h ctx s))))) ∧
    (r.pkt.opcode = opFaultAck →
      (srcDefined (pw r.pkt 0 % 65536) = false →
        exec (.faultAck r .clean) s = .next (answered h (begun h ctx s) (stBadParam, []) (begun h ctx s))) ∧
      (srcDefined (pw r.pkt 0 % 65536) = true → faultAckDo (pw r.pkt 0 % 65536) (begun h ctx s) = some t →
        exec (.faultAck r .clean) s = .next (answered h (begun h ctx s) (stOk, []) t)) ∧
      (srcDefined (pw r.pkt 0 % 65536) = true → faultAckDo (pw r.pkt 0 % 65536) (begun h ctx s) = none →
        exec (.faultAck r .clean) s = .next (answered h (begun h ctx s) (stNotFound, []) (begun h ctx s)))) ∧
    (r.pkt.opcode = opFaultInject →
      (faultInjectDo (bits (pw r.pkt 0) 47 16) (pw r.pkt 0 % 65536) (begun h ctx s) = .ok t →
        exec (.faultInject r .clean) s = .next (answered h (begun h ctx s) (stOk, []) t)) ∧
      (∀ b, faultInjectDo (bits (pw r.pkt 0) 47 16) (pw r.pkt 0 % 65536) (begun h ctx s) = .error b →
        exec (.faultInject r .clean) s =
          .next (answered h (begun h ctx s) (if b then stBadParam else stBusy, []) (begun h ctx s))))

/-- UNIT_RESET of a unit other than the crook resets the instances that OBJ names, and answers once the reset is complete;
that of the crook answers, then resets the other contexts. DEVICE_RESET closes and programs the open records, and the reset is
due after its reply. IDENT_CHALLENGE answers the identity and the signature of the nonce. CUSTODY_SET takes the secret, counts
down WRITES_LEFT and is recorded; with none left it answers NO_SPACE. -/
def Obligations.UnitAndIdentityCommandsTakeEffect : Prop :=
  ∀ (r : Request) (h : Held) (ctx : Nat) (s : State), Starts r h ctx s →
    (r.pkt.opcode = opUnitReset →
      (oidUnit r.pkt.obj ≠ 0x12 → (∀ e ∈ resetsHeld (begun h ctx s), e.n = h.n ∨ oidUnit e.req.pkt.obj ≠ oidUnit r.pkt.obj) →
        exec (.unitReset r .clean) s = .next (
          if resetRuns r.pkt (unitResetDo (oidUnit r.pkt.obj) (r.pkt.obj % 2 ^ 32) (begun h ctx s)) then
            trackLate h.n (begun h ctx s) (unitResetDo (oidUnit r.pkt.obj) (r.pkt.obj % 2 ^ 32) (begun h ctx s))
          else answered h (begun h ctx s) (stOk, [])
            (unitResetDo (oidUnit r.pkt.obj) (r.pkt.obj % 2 ^ 32) (begun h ctx s)))) ∧
      (oidUnit r.pkt.obj = 0x12 → (∀ e ∈ resetsHeld (begun h ctx s), e.n = h.n ∨ oidUnit e.req.pkt.obj ≠ 0x12) →
        exec (.unitReset r .clean) s =
          .next (crookReset (some h.n) (answered h (begun h ctx s) (stOk, []) (begun h ctx s))))) ∧
    (r.pkt.opcode = opDeviceReset →
      exec (.deviceReset r .clean) s = .next (settleLog (answered h (begun h ctx s) (stOk, [])
        (let t := programAll ((closeAll (begun h ctx s)).log.recs.length + 2) (closeAll (begun h ctx s))
         { t with sys := { t.sys with resetDue := true } })))) ∧
    (r.pkt.opcode = opIdentChallenge →
      exec (.identChallenge r .clean) s = .next (answered h (begun h ctx s)
        (stOk, challengeWords (r.pkt.params.take 4) (begun h ctx s)) (begun h ctx s))) ∧
    (r.pkt.opcode = opCustodySet →
      (s.crook.writesLeft = 0 →
        exec (.custodySet r .clean) s = .next (answered h (begun h ctx s) (stNoSpace, []) (begun h ctx s))) ∧
      (s.crook.writesLeft ≠ 0 →
        exec (.custodySet r .clean) s = .next (answered h (begun h ctx s) (stOk, []) 
          (let key := (r.pkt.params.take 4).foldl (fun x w => x * 2 ^ 64 + w.toNat) 0
           let crook := { (begun h ctx s).crook with secret := some key, writesLeft := s.crook.writesLeft - 1 }
           recPlain 0x53 0 0 { (begun h ctx s) with crook }))))

/-- ADMIT on a worker takes the STATE that MODE gives it and the shepherd's device ID, and answers BAD_PARAM for another
device; on the shepherd it sends the ADMIT on to the device, records it where MODE is 00, and waits for the answer. -/
def Obligations.AdmitTakesEffect : Prop :=
  ∀ (r : Request) (h : Held) (ctx : Nat) (s : State), Starts r h ctx s → r.pkt.opcode = opAdmit →
    (s.get F.roleCfg_ROLE 0 = 1 → admitDev r.pkt ≠ s.sys.devid →
      exec (.admitMember r .clean) s = .next (answered h (begun h ctx s) (stBadParam, []) (begun h ctx s))) ∧
    (∀ o, s.get F.roleCfg_ROLE 0 = 1 → admitDev r.pkt = s.sys.devid → r.chan = .flock o →
      (admitMode r.pkt = 0 →
        exec (.admitMember r .clean) s = .next (answered h (begun h ctx s) (stOk, [])
          (((begun h ctx s).puts 0 [(F.identStatus_SHEPHERD_ID, admitShepherd r.pkt), (F.identStatus_CTRL_OCTET, o)]).puts 0
            [(F.identStatus_STATE, 1), (F.identStatus_CAUSE, 0)]))) ∧
      (admitMode r.pkt = 1 →
        exec (.admitMember r .clean) s = .next (answered h (begun h ctx s) (stOk, [])
          (((begun h ctx s).puts 0 [(F.identStatus_SHEPHERD_ID, admitShepherd r.pkt), (F.identStatus_CTRL_OCTET, o)]).puts 0
            [(F.identStatus_STATE, 2), (F.identStatus_CAUSE, admitCause r.pkt)])))) ∧
    (s.get F.roleCfg_ROLE 0 = 2 → admitDev r.pkt ≠ s.sys.devid → memberState (admitDev r.pkt) s ≠ 0 →
      (admitMode r.pkt = 0 → exec (.admitMember r .clean) s = .next (trackLate h.n (begun h ctx s)
        (let d := admitDev r.pkt
         let b := begun h ctx s
         let t := b.puts d [(F.manifest_SERIAL, b.get F.memberDev_OBS_SERIAL d), (F.manifest_KEY_FP, b.get F.memberDev_OBS_FP d),
           (F.manifest_VALID, 1)]
         let u := if t.get F.memberDev_CAUSE d = 6 then t.put F.memberDev_CAUSE d 0 else t
         recPlain 0x52 d 0 (sendAdmit d 0 0 (some h.n) false u)))) ∧
      (admitMode r.pkt = 1 → exec (.admitMember r .clean) s = .next (trackLate h.n (begun h ctx s)
        (quarantineDev (admitDev r.pkt) 6 (some h.n) (begun h ctx s)))) ∧
      (admitMode r.pkt = 2 → exec (.admitMember r .clean) s = .next (trackLate h.n (begun h ctx s)
        (setMemberState (admitDev r.pkt) 0 ((sendAdmit (admitDev r.pkt) 1 6 (some h.n) false (begun h ctx s)).put
          F.memberDev_CAUSE (admitDev r.pkt) 0)))))

/-- A WRITE to COLLECT on the shepherd: one of index 0 hands it a notice, while fewer than 4,096 are held; one of another index
puts its words into the muster pages of its device, where they fit; a device that is not a MEMBER is denied (R360). -/
def Obligations.CollectWriteTakesEffect : Prop :=
  ∀ (r : Request) (h : Held) (ctx : Nat) (s : State), Starts r h ctx s → isCollect r.pkt = true →
    (memberState r.pkt.orig s ≠ 2 →
      exec (.collectWrite r .clean) s = .next (answered h (begun h ctx s) (stDenied, []) (begun h ctx s))) ∧
    (memberState r.pkt.orig s = 2 → r.pkt.obj % 2 ^ 32 = 0 → s.tab.notices.length < 4096 →
      exec (.collectWrite r .clean) s = .next (answered h (begun h ctx s) (stOk, [])
        { (begun h ctx s) with tab := { s.tab with notices := s.tab.notices ++ [noticeOf (r.pkt.params.drop 1)] } })) ∧
    (memberState r.pkt.orig s = 2 → r.pkt.obj % 2 ^ 32 ≠ 0 →
      exec (.collectWrite r .clean) s = .next (
        if s.get F.roleCfg_MUSTER_PAGES 0 * 4096 < (pw r.pkt 0 % 2 ^ 32 + (r.pkt.params.drop 1).length) * 8 then
          answered h (begun h ctx s) (stNoSpace, []) (begun h ctx s)
        else answered h (begun h ctx s) (stOk, [])
          (dmaWords (s.get F.roleCfg_MUSTER_ADDR 0 + r.pkt.orig * (s.get F.roleCfg_MUSTER_PAGES 0 * 4096) +
            pw r.pkt 0 % 2 ^ 32 * 8) (r.pkt.params.drop 1) (begun h ctx s))))

/-! ## Queues, channels and the flock (R161, R276, R283 to R286, R353 to R362) -/

/-- A command that waits for its version commit or prepare ends once the condition of R161 holds, with the commit or the
prepared slot; once COMMIT_TIMEOUT has passed it ends so where the condition holds then, and with BUSY where it does not. The
shepherd's own prepare of a flock-wide commit ends its part of that commit. -/
def Obligations.VersionWaitsEnd : Prop :=
  ∀ (s : State) (d : Nat), Awake s →
    (∀ n, s.ver.wait = some { who := some n, prepare := false, deadline := d } →
      let made := settleOwn n stOk [BitVec.ofNat 64 (commitSlot s * 2 ^ 16 + stagedVer s)]
        (commitNow (commitSlot s) (endWait s))
      (commitReady s = true → exec .versionCommitResume s = .next made) ∧
      (commitReady s = false → exec .versionCommitResume s = .next s) ∧
      (d ≤ s.frc → commitReady s = true → exec .versionCommitTimeout s = .next made) ∧
      (d ≤ s.frc → commitReady s = false → exec .versionCommitTimeout s =
        .next (settleOwn n stBusy [] ((endWait s).inc F.versionStatus_BUSY 0))) ∧
      (s.frc < d → exec .versionCommitTimeout s = .next s)) ∧
    (∀ who, s.ver.wait = some { who, prepare := true, deadline := d } →
      let ended (good : Bool) (t : State) : State := match who with
        | some n => settleOwn n (if good then stOk else stBusy) [] t
        | none => flockAnswer 0 s.sys.devid good t
      (commitReady s = true → exec .versionPrepareResume s = .next (ended true (prepareNow (endWait s)))) ∧
      (commitReady s = false → exec .versionPrepareResume s = .next s) ∧
      (d ≤ s.frc → commitReady s = true →
        exec .versionPrepareTimeout s = .next (ended true (prepareNow (endWait s)))) ∧
      (d ≤ s.frc → commitReady s = false → exec .versionPrepareTimeout s = .next (ended false (endWait s))) ∧
      (s.frc < d → exec .versionPrepareTimeout s = .next s))

/-- A flock-wide version commit sends VERSION_PREPARE to every device that was a MEMBER at its acceptance and prepares the
shepherd itself; devices that have not answered in time count as failed, and all then discard; a VERSION_COMMIT that is not
answered is sent again after 1 ms (R362). -/
def Obligations.FlockCommitGoesOn : Prop :=
  (∀ (r : Request) (h : Held) (ctx : Nat) (s : State), Starts r h ctx s → isFlockCommit r.pkt s = true →
    exec (.flockVersionCommit r .clean) s = .next (trackLate h.n (begun h ctx s)
      (let b := begun h ctx s
       let v := (expectOf r.pkt).getD (stagedVer b)
       let c : FlockCommit :=
         ⟨h.n, 0, some v, b.sys.devid :: h.members, [], [], commitDeadline b.frc b + relayWait b, 0⟩
       flockOwnPrepare c (sendAll h.members (versionRequest opVersionPrepare tagPrepare v) (setCommit (some c) b))))) ∧
  ∀ (s : State) (c : FlockCommit), Awake s → s.mgmt.commit = some c → flockOpen c ≠ [] →
    (c.phase = 0 → c.deadline ≤ s.time.frc → exec .flockPrepareTimeout s =
      .next (flockDiscardAll { c with bad := c.bad ++ flockOpen c }
        (setCommit (some { c with bad := c.bad ++ flockOpen c }) s))) ∧
    (c.phase = 1 → c.nextSend ≤ s.time.frc → (∀ d ∈ flockOpen c, memberState d s = 2) → exec .flockCommitResend s =
      .next (setCommit (some { c with nextSend := s.time.frc + 1000000 })
        (sendAll (flockOpen c) (versionRequest opVersionCommit tagCommit (flockExpect c s)) s)))

/-- A packet that steps 1 to 4 of R271 discard: one that cannot be read is counted in MALFORMED, and on PCIe a completion says
BAD_OPCODE or BAD_PARAM; by a control pipe that the octet does not hear none comes; one with a wrong trailer is counted in
AUTH_FAIL and recorded. -/
def Obligations.PacketsAreDiscarded : Prop :=
  ∀ (ch : Channel) (bytes : List Byte) (s : State), Awake s → crookUp s = true →
    (∀ b, parsePacket bytes = .error b →
      ((∀ o, ch ≠ .flock o) →
        exec (.packetDiscard ch bytes) s = .next (malformed ch (some (if b then stBadOpcode else stBadParam)) s)) ∧
      (∀ o, ch = .flock o → exec (.packetDiscard ch bytes) s = .next (if channelHears o 2 s = true then
        s.inc F.cmdStatus_MALFORMED 0 else s))) ∧
    (∀ p, parsePacket bytes = .ok p → p.isReply = false → checkTrailer p s = none → (∀ o, ch ≠ .flock o) →
      exec (.packetDiscard ch bytes) s = .next (recPlain 0x30 (p.opcode % 2 ^ 16 * 2 ^ 16 + chanCode ch) (p.aseq % 2 ^ 32)
        (s.inc F.cmdStatus_AUTH_FAIL 0)))

/-- A packet that a control pipe carries with a good FCS and without an errored block: a request of the shepherd's or of a lone
device's pipe is taken in while the crook has room, and waits otherwise; a worker sends a relayed packet for another device on
by its route, and a reply from below towards the shepherd; any other frame is discarded (R261, R263, R353). A relay without an
answer in time replies TIMEOUT on the channel that it came by, or as the device's part of a BCAST command (R354, R355). -/
def Obligations.ControlPipesAndRelays : Prop :=
  (∀ (o : Nat) (bytes : List Byte) (s : State), Awake s → o < 128 →
    let packet := bytes.take (bytes.length - 4)
    (channelHears o 2 s = false → ∀ e, exec (.controlPipePacket o ⟨bytes, e⟩) s = .next s) ∧
    (hearsLoop (octetLanes o) s = false →
      (fcsGood bytes = false → ∀ e, exec (.controlPipePacket o ⟨bytes, e⟩) s = .next s) ∧
      exec (.controlPipePacket o ⟨bytes, true⟩) s = .next s) ∧
    (∀ p, channelHears o 2 s = true → hearsLoop (octetLanes o) s = false → hearsLine (octetLanes o) s = true →
      fcsGood bytes = true → crookUp s = true → parsePacket packet = .ok p →
      (s.get F.roleCfg_ROLE 0 ≠ 1 → p.isReply = false →
        exec (.controlPipePacket o ⟨bytes, false⟩) s = .next (if heldFull s then
          { s with crook := { s.crook with ctrl := s.crook.ctrl ++ [(o, packet)] } } else takeIn (.flock o) p s)) ∧
      (s.get F.roleCfg_ROLE 0 = 1 → p.isReply = false → p.v2 = true → p.relayed = true → p.dst ≠ s.sys.devid →
        exec (.controlPipePacket o ⟨bytes, false⟩) s = .next (match routeOf p.dst s with
          | some r => controlOut r packet s
          | none => s.inc F.cmdStatus_REPLY_LOST 0)) ∧
      (s.get F.roleCfg_ROLE 0 = 1 → p.isReply = true → (p.v2 && p.upstream) = false →
        exec (.controlPipePacket o ⟨bytes, false⟩) s =
          .next (controlOut (s.get F.identStatus_CTRL_OCTET 0) packet s)))) ∧
  ∀ (k : Nat) (r : Relay) (s : State), Awake s → s.mgmt.relays[k]? = some r →
    let a := replyPacket (r.pkt.setFlag 9 false) stTimeout [] s
    let p := a.1.setFlag 9 false
    let t := dropRelay r a.2
    (s.frc < r.deadline → exec (.relayReplyTimeout k) s = .next s) ∧
    (r.deadline ≤ s.frc → t.mgmt.bcasts.any (·.n == r.n) = false →
      exec (.relayReplyTimeout k) s = .next (crookPump (sendHeld r.n p.status [p] t))) ∧
    (r.deadline ≤ s.frc → t.mgmt.bcasts.any (·.n == r.n) = true →
      exec (.relayReplyTimeout k) s = .next (bcastChange r.n (fun b => { b with got := b.got ++ [(r.dst, p)] }) t))

/-- The command queues: a tail within the ring is taken, after host software's own writes, and the queue fetches; a head within
the ring lets completions held back out; an idle queue is enabled with the registers written, its indices at 0 and its phase 1;
a disabled queue completes its commands that have not started with ABORTED (R283, R285). -/
def Obligations.CommandQueuesWork : Prop :=
  ∀ (q n : Nat) (s : State), Awake s → q < 64 → pcieUp s = true →
    (∀ mem, n < 2 ^ (s.cmdq q).sqLog2 → exec (.sqTailWrite q n mem) s = .next
      (let t := (hostSoftware mem s).setCmdq q { s.cmdq q with sqTail := n }
       fetchAll (sqWaiting q t) q t)) ∧
    (n < 2 ^ (s.cmdq q).cqLog2 → exec (.cqHeadWrite q n) s = .next
      (drainDone (s.cmdq q).done.length q (s.setCmdq q { s.cmdq q with cqHead := n }))) ∧
    (∀ (sqBase cqBase : BitVec 64) (sqLog2 cqLog2 : BitVec 4), (s.cmdq q).enable = false → cmdQuiesced q s = true →
      sqBase.toNat % 64 = 0 → cqBase.toNat % 64 = 0 → 4 ≤ sqLog2.toNat → sqLog2.toNat ≤ 12 → 4 ≤ cqLog2.toNat →
      cqLog2.toNat ≤ 12 →
      exec (.cmdQueueEnable q sqBase cqBase sqLog2 cqLog2) s = .next (s.setCmdq q
        ⟨sqBase.toNat, cqBase.toNat, true, sqLog2.toNat, cqLog2.toNat, 0, 0, 0, 0, true, (s.cmdq q).done⟩)) ∧
    ((s.cmdq q).enable = true → exec (.cmdQueueDisable q) s = .next (crookPump
      ((s.crook.held.filter fun h => streamOf h.req.chan == q && h.ctx.isNone).foldl
        (fun s h => completeHeld h.n stAborted 0 s) (s.setCmdq q { s.cmdq q with enable := false }))))

/-- An in-band command frame is taken once it is whole: the frame leaves its queue and the fold and ends as CONSUMED, and the
packet between its EtherType and its FCS reaches the crook, on the channel of the frame's port, source address and tags; one
with an uncorrectable word is dropped as DR_ECC; while the crook has no room it stays in its queue (R276, R286, R319). -/
def Obligations.InbandFramesAreTaken : Prop :=
  ∀ (s : State) (t : Nat) (f : Frame), PathAwake s → crookUp s = true → select 1026 true s = some (t, f) →
    (heldFull s = true ∨ f.ended = false → exec .inbandCommandTake s = .next s) ∧
    (heldFull s = false → f.ended = true →
      (∀ u, takeWords 1026 t f s = (u, true) → exec .inbandCommandTake s = .next (pump (dropQueued f drEcc u))) ∧
      (∀ u, takeWords 1026 t f s = (u, false) →
        let at_ := (f.parse.mark 0x0D).getD 14
        let body := f.bytes.take (f.bytes.length - 4)
        let k := takeSelected 1026 t true f u
        let e := unstore k.1 k.2
        let ended := finish e.1 tmConsumed 0 0 (correctSent 1026 e.1 f.bytes.length e.2)
        exec .inbandCommandTake s = .next (pump (intake
          (.inband f.port0 (BitVec.ofNat 48 (bytesNat (slice body 6 6))) (slice body 12 (at_ - 14)))
          (body.drop at_) ended)) ∧
        ended.frame f.id = none))

/-! ## The sideband ring and the ROM (R288 to R290, R314) -/

/-- The commands of the ring form one stream, stream 65, and each reply joins the station's frames to the SRC of its command.
With SB_EN 0 the station repeats every frame as it came and never claims, becomes monitor or originates (R290). -/
def Obligations.SidebandOffRepeats : Prop :=
  (∀ a : Nat, streamOf (.sideband a) = 65) ∧ (∀ ch : Channel, streamOf ch = 65 → (∃ q u v w x, ch = .pcie q u v w x) ∨ ∃ a, ch = .sideband a) ∧
  (∀ (src st : Nat) (req : Packet) (rs : List Packet) (s : State),
    (sendReplies (.sideband src) req st rs s).crook.sb.out =
      s.crook.sb.out ++ rs.map fun p => { dst := src, bytes := packetBytes p, tries := 0, reply := true }) ∧
  ∀ s : State, Awake s → sbOn s = false →
    (∀ gen mon, exec (.sbTokenReceive gen mon) s = .next (s.emit (.sbToken gen mon))) ∧
    (∀ d, exec (.sbDataReceive d) s = .next (s.emit (.sbData d.mon d.dst d.src d.packet d.a d.c))) ∧
    (∀ src ok, exec (.sbClaimReceive src ok) s = .next (s.emit (.sbClaim src))) ∧
    exec .sbTokenTimeout s = .next s ∧ exec .sbClaimStart s = .next s ∧ exec .sbClaimSend s = .next s ∧
    exec .sbRingFault s = .next s

/-- With SB_EN 1: a member passes the token on, or sends its next frame; it takes a frame for it while fewer than 16 wait, and
sets A; its own frame come back frees the ring; a claim from a lower device ID makes it a member, its own makes it monitor; a
monitor that sees no token for 20 ms and has issued none issues one of the next GEN, a member or a monitor that sees none for
50 ms claims, a claim goes again every 1 ms, and 100 ms of claiming is a ring fault (R288, R289). -/
def Obligations.SidebandStationWorks : Prop :=
  ∀ s : State, Awake s → sbOn s = true →
    (∀ gen mon, sbMonitor s = false → s.crook.sb.flying = none → exec (.sbTokenReceive gen mon) s = .next
      (let t := (setSbState 1 s).onSb fun b => { b with gen := gen, lastToken := (setSbState 1 s).frc }
       match t.crook.sb.out with
       | [] => t.emit (.sbToken gen (mon || sbMonitor t))
       | o :: rest => (t.onSb fun b => { b with out := rest, flying := some o }).emit
           (.sbData false o.dst t.sys.devid o.bytes false false))) ∧
    (∀ d : SbData, sbMonitor s = false → d.src ≠ s.sys.devid → d.dst = s.sys.devid → d.crcOk = true →
      exec (.sbDataReceive d) s = .next
        (let t := s.emit (.sbData d.mon d.dst d.src d.packet true (d.c || decide (s.crook.sb.input.length < 16)))
         if s.crook.sb.input.length < 16 then
           let u := t.onSb fun b => { b with input := b.input ++ [(d.src, d.packet)] }
           sbDrain u.crook.sb.input.length u
         else t)) ∧
    (∀ (d : SbData) (o : SbOut), d.src = s.sys.devid → d.c = true → s.crook.sb.flying = some o →
      ∃ t, exec (.sbDataReceive d) s = .next t ∧ t.crook.sb.flying = none ∧ t.crook.sb.out = s.crook.sb.out ∧
        t.crook.sb.lastToken = s.time.frc ∧ t.out = s.out ++ [.sbToken s.crook.sb.gen false]) ∧
    (∀ src, src < s.sys.devid → ∃ t, exec (.sbClaimReceive src true) s = .next (t.emit (.sbClaim src)) ∧
      t = ((setSbState 1 s).put F.cmdStatus_SB_MONITOR 0 src).onSb fun b =>
        { b with lastToken := ((setSbState 1 s).put F.cmdStatus_SB_MONITOR 0 src).frc }) ∧
    (sbMonitor s = false → exec (.sbClaimReceive s.sys.devid true) s = .next (becomeMonitor s)) ∧
    (sbMonitor s = true → s.crook.sb.lastToken + 20000000 ≤ s.frc → s.crook.sb.lastIssue + 20000000 ≤ s.frc →
      exec .sbTokenTimeout s = .next
        (((s.onSb fun b => { b with gen := b.gen + 1, lastIssue := s.frc }).inc F.cmdStatus_TOKENS_NEW 0).emit
          (.sbToken (s.crook.sb.gen + 1) false))) ∧
    (sbState s = 1 ∨ sbMonitor s = true → s.crook.sb.lastToken + 50000000 ≤ s.frc → exec .sbClaimStart s = .next
      (((setSbState 0 s).onSb fun b => { b with claimSince := s.frc, lastClaim := s.frc }).emit (.sbClaim s.sys.devid))) ∧
    (sbState s = 0 → s.crook.sb.lastClaim + 1000000 ≤ s.time.frc → exec .sbClaimSend s = .next
      ((s.onSb fun b => { b with lastClaim := s.frc }).emit (.sbClaim s.sys.devid))) ∧
    (sbState s = 0 → s.crook.sb.claimSince + 100000000 ≤ s.time.frc → exec .sbRingFault s = .next
      (raiseLevel 0x0E sbInst (some (0x31, 0, 0)) (setSbState 3 s)))

/-- A check of the control store starts unless one runs; when it is done CALC_CRC holds the CRC-32C of the store and
CHECK_STATE is 10 where that is ROM_CRC (R314). A CALL pushes the address after its own, RETURN takes it back, a ninth CALL and
a RETURN without one are machine checks, and a machine check among the microsteps of a command, NOP here, records itself and
ends the command with MACHINE_CHECK (R309, R312). -/
def Obligations.RomChecksRun : Prop :=
  (∀ (h : Held) (ctx w : Nat) (x : MicroStep) (s : State),
    let c := s.context ctx
    (bits w 22 20 = 3 → c.uaddr ≠ 0x1FFF → c.stack.length < 8 → seqStep h ctx x w s =
      (.going, s.setContext ctx { c with uaddr := w % 2 ^ 13, stack := (c.uaddr + 1) :: c.stack })) ∧
    (bits w 22 20 = 3 → 8 ≤ c.stack.length → seqStep h ctx x w s = (.check c.uaddr none, s)) ∧
    (∀ a rest t, bits w 22 20 = 4 → c.stack = a :: rest → evalWords (instOf 0x12 ctx) [64 + rest.length] s = (t, false) →
      seqStep h ctx x w s = (.going, t.setContext ctx { c with uaddr := a, stack := rest })) ∧
    (bits w 22 20 = 4 → c.stack = [] → seqStep h ctx x w s = (.check c.uaddr none, s))) ∧
  (∀ (r : Request) (h : Held) (ctx : Nat) (f : Fetch) (s t : State) (a : Nat) (nano : Option Nat), Starts r h ctx s →
    r.pkt.opcode = opNop → f.parts = none →
    microRun (h.inCtx ctx) ctx f.steps (startIn h.n ctx (fencePassed h s)) = (.check a nano, t) →
    exec (.nop r f) s = .next (settleOwn h.n stMachineCheck [] (recordCheck r.pkt ctx a nano t))) ∧
  ∀ s : State, Awake s →
    (s.get F.crookId_CHECK_STATE 0 ≠ 1 → exec .romCheckStart s = .next (s.put F.crookId_CHECK_STATE 0 1)) ∧
    (s.get F.crookId_CHECK_STATE 0 = 1 → exec .romCheckStart s = .next s) ∧
    (s.get F.crookId_CHECK_STATE 0 = 1 → exec .romCheckDone s = .next (romChecked (crc32c romBytes 0xFFFFFFFF).toNat s)) ∧
    ∀ crc, crc = s.get F.crookId_ROM_CRC 0 →
      (romChecked crc s).get F.crookId_CHECK_STATE 0 = 2 ∧ (romChecked crc s).get F.crookId_CALC_CRC 0 = crc

/-! ## Start-up (R364 to R370, R376, R377, R390) -/

/-- RESET_N deasserted: the straps are latched, every object of a worker takes its reset value and a shepherd's ROLE is 10 with
STATE 01, PHASE is 001, no frame or command is inside, and host memory and the custody secret stay; the reset of a DEVICE_RESET
leaves the same, with the straps as they were, and says that a command made it. -/
def Obligations.ResetEnds : Prop :=
  (∀ (s : State) (role : Bool) (devid : BitVec 10), s.sys.inReset = true →
    ∃ t, exec (.resetNDeassert role devid) s = .next t ∧ t.sys.inReset = false ∧ t.sys.phase = 1 ∧
      t.sys.devid = devid.toNat ∧ t.frames = [] ∧ t.crook.held = [] ∧ t.hostMem = s.hostMem ∧
      t.crook.secret = s.crook.secret ∧ t.pending = s.pending ∧
      (role = false → ∀ c i, t.obj c i = State.reset.obj c i ∧ t.stagedObj c i = State.reset.stagedObj c i) ∧
      (role = true → t.get F.roleCfg_ROLE 0 = 2 ∧ t.get F.identStatus_STATE 0 = 1)) ∧
  ∀ s : State, Awake s → s.sys.resetDue = true →
    ∃ t, exec .deviceResetBegin s = .next t ∧ t.sys.inReset = false ∧ t.sys.phase = 1 ∧ t.sys.byCommand = true ∧
      t.sys.devid = s.sys.devid ∧ t.sys.role = s.sys.role ∧ t.frames = [] ∧ t.crook.held = [] ∧ t.hostMem = s.hostMem ∧
      t.crook.secret = s.crook.secret

/-- The steps of start-up: fuses loaded, PHASE is 010, BOOT_NONCE is drawn and the on-chip log is checked; the crook starts,
PHASE is 011, the ROM check runs and the link trains unless PERST_N holds it; self-test marks each word that fails and leaves
the fold's override, calibration each lane and each PLL that fails; at ready PHASE is 100 and BELLWETHER toggles every 500 µs
(R178, R330, R342, R367 to R370). -/
def Obligations.StartUpProceeds : Prop :=
  ∀ s : State, Awake s → s.flt.fatal = false →
    (s.sys.fuses = false →
      let t := { s with sys := { s.sys with fuses := true, boots := s.sys.boots + 1, phase := 2 } }
      let lost := { t with log := { t.log with kept := false } }
      (s.log.kept = true → storeGood s = true → exec .fusesLoaded s = .next t) ∧
      (s.log.kept = false ∨ storeGood s = false →
        exec .fusesLoaded s = .next (if s.on F.flashCfg_EN 0 then flashFound 2 lost else lost))) ∧
    (s.sys.fuses = true → s.sys.crookOn = false → exec .crookStart s = .next
      (let t := romCheckStartDo { s with sys := { s.sys with crookOn := true, phase := 3 } }
       if s.sys.perst then t else trainLink t)) ∧
    (crookUp s = true → s.sys.testDone = false → ∀ ws : List (Nat × Nat), exec (.selfTestDone ws) s = .next
      (let t := ws.foldl (fun s w => testWord w.1 w.2 s) s
       overrideEnd { t with sys := { t.sys with testDone := true } })) ∧
    (crookUp s = true → s.sys.calDone = false → ∀ ls os : List Nat, (∀ l ∈ ls, l < 1024) → (∀ o ∈ os, o < 128) →
      exec (.laneCalibrationDone ls os) s = .next
        (let t := ls.foldl (fun s l => raisePlain 0x0A (laneInst l) (s.put F.lanePower_CAL_FAIL l 1)) s
         let u := os.foldl (fun s o => raisePlain 0x0B (instOf 0x02 o) s) t
         { u with sys := { u.sys with calDone := true } })) ∧
    (s.sys.phase = 3 → startComplete s = true → exec .deviceReady s = .next
      (let u := recPlain 0x05 (elapsedNow s / 1000) 0 (flushHeld (writeReset s))
       { u with sys := { u.sys with phase := 4, elapsed := some (elapsedNow s), bellSince := u.frc } })) ∧
    (s.sys.phase = 4 → s.sys.bellSince + 500000 ≤ s.time.frc → exec .bellwetherToggle s =
      .next { s with sys := { s.sys with bellwether := !s.sys.bellwether, bellSince := s.time.frc } })

/-- The log is restored from flash where the store was not kept, and opens once it is kept; PERST_N
asserted takes the link down and turns off every queue and ring, and deasserted lets it train (R342, R366, R390). -/
def Obligations.LogAndLinkComeUp : Prop :=
  ∀ s : State, Awake s →
    (crookUp s = true → s.log.kept = false → s.sys.logReady = false → s.flash.state = 2 → exec .logRestore s = .next
      (let t := restoreLog s
       { t with log := { t.log with kept := true } })) ∧
    (crookUp s = true → s.log.kept = true → s.sys.logReady = false → 
      ((logOpen s).flt.fatal && (logOpen s).log.holding) = false → exec .logAvailable s = .next (settleLog (logOpen s))) ∧
    (s.sys.perst = false → exec .perstNAssert s = .next
      (let d := ({ s with sys := { s.sys with perst := true } } : State).puts 0 [(F.hostStatus_LINK_GEN, 0), (F.hostStatus_LINK_WIDTH, 0)]
       let u := queuesOff (ringsOff d)
       let queues := u.crook.queues.map fun e => (e.1, { e.2 with done := [] })
       { u with crook := { u.crook with queues }, host := { u.host with msix := [] } })) ∧
    (s.sys.perst = true → s.sys.crookOn = true → exec .perstNDeassert s =
      .next (trainLink { s with sys := { s.sys with perst := false } })) ∧
    (s.sys.perst = true → s.sys.crookOn = false → exec .perstNDeassert s =
      .next { s with sys := { s.sys with perst := false } })

/-! ## The pace loop (R18 to R20, R382) and the junction sensor -/

/-- A sample that is due is stored, shows PACE_LOW and, while TRACKING, runs the loop; the loop asks for 5 mV more, up to
VCORE_MAX, where a pace is below its target, and for 5 mV less, down to VCORE_MIN, after 16 samples in a row at twice the margin;
a request that is not acknowledged is read every 5 µs, HOLD is entered after 100 µs, and then the request goes again every 1 ms;
a response that acknowledges ends the wait. -/
def Obligations.PaceLoopWorks : Prop :=
  ∀ (s : State) (pen bank : Nat), Awake s →
    ((∀ t, s.pace.lastSample = some t → t + 10000 ≤ s.time.frc) → s.get F.paceStatus_STATE 0 ≠ 0 →
      ∃ t, exec (.paceSample pen bank) s = .next (if t.get F.paceStatus_STATE 0 = 1 then paceLoop pen bank t else t) ∧
        t = showPaceLow (decide (pen < 3200) || decide (bank < 1250))
          (({ s with pace := { s.pace with lastSample := some s.time.frc } } : State).puts 0
            [(F.paceStatus_PEN_PACE, min pen 65535), (F.paceStatus_BANK_PACE, min bank 65535)])) ∧
    (pen * 1000 < 3200 * (1000 + s.get F.paceControl_MARGIN 0) ∨ bank * 1000 < 1250 * (1000 + s.get F.paceControl_MARGIN 0) →
      (paceLoop pen bank s).get F.paceStatus_VCORE_REQ 0 =
        min (s.get F.paceStatus_VCORE_REQ 0 + 5) (s.get F.paceControl_VCORE_MAX 0)) ∧
    (3200 * (1000 + 2 * s.get F.paceControl_MARGIN 0) ≤ pen * 1000 → 1250 * (1000 + 2 * s.get F.paceControl_MARGIN 0) ≤ bank * 1000 →
      s.pace.highCount = 15 → (paceLoop pen bank s).get F.paceStatus_VCORE_REQ 0 =
        max (s.get F.paceStatus_VCORE_REQ 0 - 5) (s.get F.paceControl_VCORE_MIN 0)) ∧
    (s.pace.unacked.isSome = true → s.pace.lastRead + 5000 ≤ s.time.frc → exec .avsReadPoll s =
      .next { s.emit (.avs (avsRequest 1 0)) with pace := { s.pace with lastRead := s.time.frc } }) ∧
    (∀ t, s.pace.unacked = some t → t + 100000 ≤ s.time.frc → s.get F.paceStatus_STATE 0 ≠ 2 → exec .avsNoAckTimeout s = .next
      (let u := (s.put F.paceStatus_STATE 0 2).put F.paceEvents_AVS_FAIL_S 0 1
       raiseLevel 0x09 paceInst none { u with pace := { u.pace with lastResend := u.frc } })) ∧
    (s.get F.paceStatus_STATE 0 = 2 → s.pace.lastResend + 1000000 ≤ s.time.frc → exec .avsHoldResend s =
      .next { s.emit (.avs (avsRequest 0 (s.get F.paceStatus_VCORE_REQ 0))) with
        pace := { s.pace with lastResend := s.time.frc, lastRead := s.time.frc } }) ∧
    (∀ w, s.pace.unacked.isSome = true → avsAcks w s = true → s.get F.paceStatus_STATE 0 = 1 → exec (.avsResponse w) s = .next
      (let u := s.put F.paceStatus_VCORE_ACK 0 (bits w.toNat 23 8)
       { u with pace := { u.pace with unacked := none } }))

/-- A temperature above 105 °C raises FS_TEMP_HIGH while it lasts, 115 °C for 10 µs raises FS_TEMP_TRIP (Table FA-4). -/
def Obligations.TemperatureRaises : Prop :=
  ∀ s : State, Awake s →
    exec .tempHigh s = .next (raiseLevel 0x13 tempInst none s) ∧
    exec .tempHighClear s = .next (clearLevel 0x13 tempInst s) ∧
    exec .tempTrip s = .next (raise 0x14 tempInst none .plain none s)

/-! ## The frame path (chapters 3 to 8) -/

/-- The first bit of a frame at a MAC that takes it: the frame joins those inside, with its ingress port, its time and, on an
Ethernet port, the stamp of RX_ADJ; beside what a far-end loopback sends back, nothing else changes but the number of the next
frame. A near-end loopback takes the oldest frame that the port has sent; a data pipe whose octet brings it no blocks takes
none, nor does a port whose lanes do not all hear the line (R49, R53, R81, R237, R261). -/
def Obligations.FramesArrive : Prop :=
  ∀ (p : Nat) (w : WireFrame) (s : State), PathAwake s → p < 1024 →
    let taken (v : WireFrame) (u : State) : Prop :=
      ∃ f, exec (.ingressFrameStart p w) s = .next { u with nextFrame := u.nextFrame + 1, frames := u.frames ++ [f] } ∧
        f.id = s.nextFrame ∧ f.bytes = v.bytes ∧ f.inPort = p ∧ f.port0 = p ∧ f.loc = .mac ∧ f.inFrc = s.frc ∧
        f.ended = false ∧ f.blockErr = v.blockErr ∧ f.maxFrame = s.get F.portCfg_MAX_FRAME p ∧
        f.preempted = (v.preemptable && preemptActive p s) ∧
        (v.pipe = none → f.overFlock = false ∧
          f.stamp = stampAdd s.tod16 (toSigned 16 (s.get F.portTs_RX_ADJ p) * 1024)) ∧
        ∀ x, v.pipe = some x → f.overFlock = true ∧ f.srcDevid = x.srcDevid ∧ f.srcPort = x.srcPort ∧ f.tc = x.tc % 8
    (isPipe p s = true → channelHears (p / 8) 1 s = false → exec (.ingressFrameStart p w) s = .next s) ∧
    ((isPipe p s = false ∨ channelHears (p / 8) 1 s = true) →
      (hearsLoop (frontLanes p s) s = false → hearsLine (frontLanes p s) s = false →
        exec (.ingressFrameStart p w) s = .next s) ∧
      (hearsLoop (frontLanes p s) s = false → hearsLine (frontLanes p s) s = true → macTakes p w s = true →
        taken w (if sendsFar (frontLanes p s) s = true then farBack p w s else s)) ∧
      (hearsLoop (frontLanes p s) s = true → ∀ v vs, (s.port p).loop = v :: vs → macTakes p v s = true →
        taken v (s.setPort p { s.port p with loop := vs })))

/-- The last byte of the frame that a port receives: a good control frame is consumed, any other frame is counted as good or
under what is wrong with it, and the frame and its copies meet their tail; byte MAX_FRAME + 1 cuts an oversize frame off. A
frame that grows gets its next cell; where pool B gives none, CHAIN_FAIL counts, and a frame in a queue is dropped as DR_QUOTA,
counted against its requester, while one in transmission is cut short at its last stored byte and stomped (R64, R65, R72, R176,
R182, Tables FB-4 and FB-10). -/
def Obligations.FramesEnd : Prop :=
  (∀ (p : Nat) (f : Frame) (s : State), PathAwake s → p < 1024 → arriving p s = some f →
    let m := macCheck f
    let e := evalHop (instOf 0x01 (p / 8)) 0 f.bytes.length (seenEnd p f m.1 m.2 s)
    (m.1 = 0 → e.2 = false → isControl f = true → exec (.ingressFrameEnd p) s = .next (pump
      (finish { f with ended := true, len0 := f.bytes.length } tmConsumed 0 0 (takeControl p f.bytes e.1)))) ∧
    (m.1 = 0 → e.2 = false → isControl f = false →
      exec (.ingressFrameEnd p) s = .next (pump (tailAll f 0 (countGood p 0 f.bytes e.1)))) ∧
    (m.1 = 0 → e.2 = true → exec (.ingressFrameEnd p) s = .next (pump (tailAll f drEcc e.1))) ∧
    (m.1 ≠ 0 → exec (.ingressFrameEnd p) s = .next (pump (tailAll f m.1 e.1))) ∧
    (f.maxFrame < f.bytes.length → exec (.oversizeCutOff p) s = .next (pump
      ((s.frames.filter fun g => g.wire == f.id).foldl (fun s g => cutOne g s) s))) ∧
    (f.bytes.length ≤ f.maxFrame → exec (.oversizeCutOff p) s = .next s)) ∧
  ∀ (id : Nat) (f : Frame) (s : State), PathAwake s → s.frame id = some f →
    let grows := f.ended = false ∧ f.sentLen = 0 ∧ f.loc ≠ .tail ∧ f.cells ≠ [] ∧
      chainNeed f (truncLen f f.bytes.length) ≠ 0
    (¬grows → exec (.foldChainCell id) s = .next s) ∧
    (∀ c t u, grows → chainCell f s = some (c, t) → mapWords [c] t = (u, false) →
      exec (.foldChainCell id) s = .next u) ∧
    (∀ c t u, grows → chainCell f s = some (c, t) → mapWords [c] t = (u, true) →
      exec (.foldChainCell id) s = .next (match u.frame id, f.loc with
        | some g, .queue _ => pump (dropQueued g drEcc u)
        | some g, _ => u.setFrame { g with stomp := drEcc }
        | none, _ => u)) ∧
    (grows → chainCell f s = none →
      let t := s.inc F.foldStatus_CHAIN_FAIL 0
      let drops := t.inc F.reqStatus_DROPS f.req
      (∀ q, f.loc = .queue q → exec (.foldChainCell id) s = .next (pump (dropQueued f drQuota
        (if drops.on F.reqQuota_LOSSLESS f.req then drops.inc F.reqStatus_LOSSLESS_DROPS f.req else drops)))) ∧
      ((∀ q, f.loc ≠ .queue q) → exec (.foldChainCell id) s =
        .next (t.setFrame { f with stomp := drLenStomp, sentLen := cellRoom f.cells })))

/-- A complete header window: its frame waits for the drove from now on, and the drove goes on. A pen that completes a frame
before its time-out decides on it: a dropped frame is skipped at the race, any other stands at the race with its copies, and one
whose sequence number the race has passed is discarded. RACE_TIMEOUT of HEAD_SEQ, as it stood at the frame's dispatch: the
frame is orphaned and recorded, and HEAD_SEQ goes on (R25, R90, R112 to R114). -/
def Obligations.PensAndRaceWork : Prop :=
  ∀ (p : Nat) (s : State) (f : Frame), PathAwake s → p < 1026 →
    (windowFrame p s = some f → exec (.headerWindowComplete p) s = .next
      (drove ((newId s).2.setFrame { f with win := .waits s.frc (newId s).1 false }))) ∧
    (windowFrame p s = none → exec (.headerWindowComplete p) s = .next s) ∧
    (∀ seq v t g u, seq < 65536 → (s.frames.find? fun f => f.loc == .pen && f.inPort == p && f.seq == seq) = some f →
      s.isolated (instOf 0x04 (f.pen.getD 0)) = false → penDecide { f with kind := 0 } s = (v, t) →
      decided f v (perfEvent 0x04 0x01 (f.pen.getD 0) 1 t) = (g, u) →
      (serialLt seq (u.get F.racePort_HEAD_SEQ p) = true → exec (.penComplete p seq) s = .next (drove (lateDiscard g u))) ∧
      (serialLt seq (u.get F.racePort_HEAD_SEQ p) = false →
        (v.reason ≠ 0 → exec (.penComplete p seq) s = .next (drove (raceAll p (dropInPen g v.reason u)))) ∧
        (v.reason = 0 → exec (.penComplete p seq) s = .next (drove (raceAll p
          (let a := u.setFrame { g with loc := .race }
           { a with frames := a.frames ++ v.copies.map fun c => { c with doneFrc := a.frc } })))))) ∧
    ((s.frames.find? fun f => f.inPort == p && f.seq == s.get F.racePort_HEAD_SEQ p && f.kind == 0 &&
        (f.loc == .pen || f.loc == .lost)) = some f →
      (s.frc < f.disp + f.raceTo → exec (.raceTimeout p) s = .next s) ∧
      (f.disp + f.raceTo ≤ s.frc → exec (.raceTimeout p) s = .next
        (let t := (orphan f (raceRecord f false s)).inc F.racePort_TIMEOUTS p
         let u := t.put F.racePort_HEAD_SEQ p (s.get F.racePort_HEAD_SEQ p + 1)
         drove (raceAll p (raise 0x07 (instOf 0x04 (f.pen.getD 0)) none .plain
           (some (0x13, p * 2 ^ 16 + s.get F.racePort_HEAD_SEQ p, f.pen.getD 0)) u)))))

/-- A MAC that can start a frame: frames that never fit their window are dropped, then the selected frame starts on a front
port, waits for a host ring, recirculates or ends at the export path, and one with an uncorrectable word is dropped (R193,
R199, R200, R319). A frame whose last bit leaves a lane that transmits is sent, stomped where that is due, up to where it was
cut short; an export frame due is closed (R65, R223). -/
def Obligations.FramesLeave : Prop :=
  (∀ (p t : Nat) (x : Bool) (f : Frame) (s u : State), PathAwake s → p < 1028 → p ≠ 1026 →
    let d := dropOverruns (s.frames.length + 1) p x s
    (select p x d = none → exec (.schedSelect p x) s = .next (pump d)) ∧
    (select p x d = some (t, f) → takeWords p t f d = (u, true) →
      exec (.schedSelect p x) s = .next (pump (dropQueued f drEcc u))) ∧
    (select p x d = some (t, f) → takeWords p t f d = (u, false) →
      exec (.schedSelect p x) s = .next
        (let r := takeSelected p t x f u
         if p < 1024 then pump (startFront p x r.1 r.2)
         else if p = 1024 then refreshActive 1024 (startHost r.1 r.2)
         else if p = 1025 then recirculate r.1 r.2
         else pump (exportEnd r.1 r.2)))) ∧
  (∀ (p : Nat) (x : Bool) (f : Frame) (s : State), PathAwake s → p < 1024 →
    (s.frames.find? fun f => f.loc == .tx p x) = some f →
    let stands := (f.ended = false ∧ f.stomp ≠ drOversize) ∨ f.fragFrc = none ∨ portDrives p s = false
    (stands → exec (.egressFrameEnd p x) s = .next s) ∧
    (¬stands → exec (.egressFrameEnd p x) s = .next
      (let body := if f.sentLen = 0 then f.sendBody else f.sendBody.take (((f.sentLen : Int) + f.growth).toNat)
       let e := evalHop (instOf 0x01 (p / 8)) 0 (body.length + 4) s
       let stomp := if f.stomp = 0 ∧ e.2 = true then drEcc else f.stomp
       pump (refreshActive p (settlePreempt p (portClose p
         (egressDone p f stomp (if stomp = 0 then withFcs body else withStomp body) e.1))))))) ∧
  ∀ s : State, PathAwake s → s.telem.filling ≠ [] → s.telem.fillSince + s.get F.telemCfg_EXP_FLUSH 0 * 1000 ≤ s.time.frc →
    exec .exportFrameFlush s = .next (pump (closeExport s))

/-- Flow control: a received pause that is over is removed; a changed XOFF state is signalled, and again every REFRESH while it
lasts (R70, R71). Preemption is verified by at most three verify packets, VERIFY_TIME apart; a response ends it well (R74). A
gate list takes effect at its change time, and the entry that the ToD gives takes hold (R76, R77). -/
def Obligations.PortTimersAct : Prop :=
  ∀ (p i : Nat) (s : State), PathAwake s → p < 1024 →
    (let due (e : Nat × Nat) : Prop := e.2 ≤ s.frc ∧ (s.get F.portFc_FC_MODE p = 1 ∨ e.1 = i)
     (∃ e ∈ (s.port p).pauses, due e) → ∃ rest, (∀ e, e ∈ rest ↔ e ∈ (s.port p).pauses ∧ ¬due e) ∧
      exec (.pauseTimerExpiry p i) s = .next (showPaused p (s.setPort p { s.port p with pauses := rest }))) ∧
    (fcWanted p s ≠ (s.port p).fcSent → fcSends p s = true → s.get F.portFc_FC_MODE p ≠ 0 →
      exec (.flowControlFrameSend p) s = .next (fcSend p
        ((List.range 8).foldl (fun m i => setBit m i (bit (fcWanted p s) i || bit (s.port p).fcSent i)) 0) (fcWanted p s)
        (s.setPort p { s.port p with fcSent := fcWanted p s }))) ∧
    (∀ t, (s.port p).fcDue = some t → t ≤ s.time.frc → fcWanted p s ≠ 0 → fcSends p s = true →
      exec (.flowControlRefresh p) s = .next (fcSend p (fcWanted p s) (fcWanted p s) s)) ∧
    (s.get F.portStatus_VERIFY p = 1 → (s.port p).verDue ≤ s.time.frc → s.on F.portStatus_LINK p = true →
      exec (.preemptVerifyTimer p) s = .next (if (s.port p).verTries < 3 then
        lineOut p (.verify p) (s.setPort p { s.port p with
          verTries := (s.port p).verTries + 1, verDue := s.time.frc + s.get F.portPreempt_VERIFY_TIME p * 10 ^ 6 })
        else showPreempt p (s.put F.portStatus_VERIFY p 3))) ∧
    (s.get F.portStatus_VERIFY p = 1 → 0 < (s.port p).verTries →
      exec (.preemptVerifyResponse p) s = .next (showPreempt p (s.put F.portStatus_VERIFY p 2))) ∧
    (∀ t l, (s.port p).gatePend = some (t, l) → t ≤ s.todNs → exec (.gateListChange p) s = .next (gatesMoved p
      ((enterEntry p 0 (s.setPort p { s.port p with gates := l, gateStart := t, gatePend := none, gateHold := false })).put
        F.portStatus_GATE_PENDING p 0))) ∧
    ((s.port p).gates.en = true → exec (.gateEntryChange p) s = .next (gatesMoved p
      (enterEntry p (entryAt (s.port p).gates (cyclePos (s.port p).gates (s.port p).gateStart s.todNs)) s)))

/-- The states of a port (R81 to R84, R262): debounced loss flushes its queues, an empty flush leads to HOLD, DOWN or DISABLED,
HOLD ends UP, and a link that comes up or is lost moves the state as Table EP-12 says; a loss clears the received pauses and
cuts off the frames in transmission, and lets a port that is being disabled go on to its flush. -/
def Obligations.PortStatesFollow : Prop :=
  ∀ (p : Nat) (s : State), Awake s → p < 1024 →
    (s.get F.portStatus_STATE p = 3 → (s.port p).since + s.get F.portCfg_DEBOUNCE p * 1000 ≤ s.time.frc →
      exec (.debounceEnd p) s = .next (enterFlush p (s.inc F.portStatus_LINK_DOWNS p))) ∧
    (s.get F.portStatus_STATE p = 4 → busyQueues p s = [] →
      exec (.portFlushComplete p) s = .next (if portRuns p s = false then toState p 0 (s.put F.portStatus_LINK p 0)
        else if s.on F.portStatus_LINK p then toState p 5 s else toState p 1 s)) ∧
    (s.get F.portStatus_STATE p = 5 → (s.port p).since + s.get F.portCfg_HOLD p * 1000 ≤ s.time.frc →
      exec (.holdEnd p) s = .next (toState p 2 s)) ∧
    (let up := portRuns p s = true ∧ (s.port p).closing = false ∧ s.on F.portStatus_LINK p = false ∧
       ∀ l ∈ frontLanes p s, laneUp l s = true
     (up → isPipe p s = true → pipeUp p s = true →
       exec (.linkUp p) s = .next (stateFound p (startVerify p (s.put F.portStatus_LINK p 1)))) ∧
     (up → isPipe p s = false → s.get F.portCfg_SPEED p ≠ 0 →
       ∃ t, exec (.linkUp p) s = .next (stateFound p (startVerify p t)) ∧ t.get F.portStatus_LINK p = 1 ∧
         t.get F.portStatus_LOCAL_FAULT p = 0 ∧ t.get F.portStatus_HI_BER p = 0 ∧
         t.get F.portStatus_FEC_LOCK p = (if s.get F.portCfg_FEC p = 0 then 0 else 1) ∧ t.frames = s.frames ∧
         t.ports = s.ports)) ∧
    (let lost (t : State) : State :=
       let u := showPaused p (t.setPort p { t.port p with pauses := [] })
       let v := (u.frames.filter fun f => f.loc == .tx p true || f.loc == .tx p false).foldl
         (fun s f => cutOff f drPortDown s) u
       pump (if (v.port p).closing then portClose p v else stateLost p v)
     (portRuns p s = true ∨ (s.port p).closing = true) → s.on F.portStatus_LINK p = true →
      (isPipe p s = true → pipeUp p s = false →
        exec (.linkLoss p) s = .next (lost (s.put F.portStatus_LINK p 0))) ∧
      (isPipe p s = false → hearsLoop (frontLanes p s) s = false →
        ∃ t, exec (.linkLoss p) s = .next (lost t) ∧ t.get F.portStatus_LINK p = 0 ∧ t.frames = s.frames ∧
          t.ports = s.ports)) ∧
    ((s.get F.portStatus_STATE p = 2 → stateLost p s = toState p 3 s) ∧
      (s.get F.portStatus_STATE p = 5 → stateLost p s = toState p 1 s) ∧
      (s.get F.portStatus_STATE p = 3 → stateFound p s = toState p 2 (s.inc F.portStatus_BOUNCES p)) ∧
      (s.get F.portStatus_STATE p = 1 → stateFound p s = toState p 5 s))

/-! ## Quotas, policers, the fold, tables and versions (chapters 5 to 8) -/

/-- LIMIT of a requester takes its value and the requester's state follows; POL_STATE takes both buckets; a DRAINING block that
no frame uses joins its pool; each shaper that waits for the slot at a boundary is refilled, and goes on or waits for its next
slot (R170, R184, R196, R206). -/
def Obligations.FoldAndShapersFollow : Prop :=
  ∀ s : State, Awake s →
    (∀ (r : Nat) (limit : BitVec 22), r < 8196 →
      exec (.reqQuotaLimitWrite r limit) s = .next (reqChanged r (s.put F.reqQuota_LIMIT r limit.toNat))) ∧
    (∀ (p : Nat) (c e : BitVec 42), p < 262144 →
      exec (.polStateWrite p c e) s = .next (setBuckets p (toSigned 42 c.toNat * 625) (toSigned 42 e.toNat * 625) s)) ∧
    (∀ b, b < 256 → blockOpen b s = false → s.blockUsed b = [] → exec (.carveBlockJoin b) s = .next (blockJoin b s)) ∧
    (s.time.frc % 64 = 0 → exec .calendarSlotVisit s = .next
      (((s.listed .shaper).filter fun x =>
          s.on F.shaper_EN x && s.on F.shaper_WAITING x && s.get F.shaper_SLOT x == s.frc / 64 % 4096).foldl
        (fun s x => if lookD 0 (refill x s).sched.credit x < 0 then enterSlot x (refill x s)
          else refreshActive (shaperPort x) ((refill x s).put F.shaper_WAITING x 0)) s)) ∧
    (s.time.frc % 64 ≠ 0 → exec .calendarSlotVisit s = .next s)

/-- A pending-filter entry is over 100 ms after its time, and only then; the oldest notice goes to its ring, or from a worker to
the shepherd, one at a time, and with DEST 10 waits (assumption 121); the promoter moves overflow entries of a bucket home as
long as they have room, and the fold recovers (R127, R140, R141, R179, R359). -/
def Obligations.LearningFollows : Prop :=
  ∀ s : State, Awake s →
    (∀ (addr : BitVec 48) (fid : Nat), ∃ t, exec (.learnFilterExpiry addr fid) s = .next t ∧
      (∀ e, e ∈ t.tab.filter ↔ e ∈ s.tab.filter ∧
        ¬(e.addr = addr.toNat ∧ e.fid = fid ∧ e.since + 100000000 ≤ s.time.frc)) ∧
      t.live = s.live ∧ t.frames = s.frames ∧ t.hostMem = s.hostMem ∧ t.tab.notices = s.tab.notices) ∧
    (∀ n rest, s.tab.notices = n :: rest →
      (s.get F.learnCfg_DEST 0 = 0 → exec .strayNoticeDeliver s = .next (noticeToRing n rest s)) ∧
      (s.get F.learnCfg_DEST 0 = 1 → s.mgmt.notice = none → s.get F.roleCfg_ROLE 0 ≠ 1 →
        exec .strayNoticeDeliver s = .next (noticeLost n { s with tab := { s.tab with notices := rest } })) ∧
      (s.get F.learnCfg_DEST 0 = 1 → s.mgmt.notice = none → s.get F.roleCfg_ROLE 0 = 1 →
        exec .strayNoticeDeliver s = .next
          (let t := { s with tab := { s.tab with notices := rest } }
           sendRoute (shepherdId t) (collectRequest tagNotice 0 (0 :: n.words) t)
             { t with mgmt := { t.mgmt with notice := some (n, t.frc + relayWait t) } }))) ∧
    (s.get F.learnCfg_DEST 0 = 2 → exec .strayNoticeDeliver s = .next s) ∧
    (∀ b, b < 1310720 → (ovfOf b s = [] → exec (.promoterMove b) s = .next s) ∧
      (∀ o os e, ovfOf b s = o :: os → ovfEntry o s = some e →
        (freeSlot b e.wide s = none → exec (.promoterMove b) s = .next s) ∧
        (∀ i, freeSlot b e.wide s = some i →
          exec (.promoterMove b) s = .next (promoteAll b os (promoteTo i o e s))))) ∧
    exec .foldRecoveryDone s = .next (settleResets (foldRecoveryDoneDo s))

/-- Slots and table content: a DRAINING slot of age DRAIN_LIMIT becomes EXPIRED, and the frames outside the pens leave HOLDERS;
a DRAINING or EXPIRED slot without holders becomes FREE; a sweep settles the entries born at or before OLDEST_VER; retired
content whose versions have gone is reclaimed (R123, R163, R164). -/
def Obligations.SlotsAndContentFollow : Prop :=
  ∀ s : State, Awake s →
    (∀ n, n < 4 → s.get F.slot_STATE n = 2 → s.get F.versionCfg_DRAIN_LIMIT 0 ≤ slotAge n s →
      exec (.slotExpire n) s = .next ((s.put F.slot_STATE n 3).frames.foldl (fun s f =>
        if f.holds && f.earmark == n && f.loc != .pen then (unhold f s).2.setFrame (unhold f s).1 else s)
        (s.put F.slot_STATE n 3))) ∧
    (∀ n, n < 4 → 2 ≤ s.get F.slot_STATE n → s.get F.slot_HOLDERS n = 0 → exec (.slotFree n) s = .next
      (let t := s.put F.slot_STATE n 0
       { t with ver := { t.ver with left := dropKey t.ver.left n } })) ∧
    exec .settledSweep s = .next (sweepDo (oldestVer s) s) ∧
    exec .reclaim s = .next (reclaimDo s)

/-! ## Lanes (chapter 2) -/

/-- REQ of a lane is stored unless R54 refuses it, and a lane that is not in transition then moves to the state it has to be in;
a transition that completes gives STATE, one to L0 a signal and CDR lock too, and training begins there; an L2 exit adapts
unless ADAPT is 10, and without CDR lock after 60 µs fails, with its PLL every lane of the octet that exits on it (R39, R40,
R54 to R56). -/
def Obligations.LanePowerMoves : Prop :=
  ∀ (l : Nat) (s : State), Awake s → l < 1024 →
    (∀ q : BitVec 2, (q = 3 ∨ (q ≠ 0 ∧ s.get F.laneCfg_LOOPBACK l ≠ 0) →
        exec (.lanePowerReqWrite l q) s = .next (settleResets s)) ∧
      (q ≠ 3 → (q = 0 ∨ s.get F.laneCfg_LOOPBACK l = 0) →
        let t := s.put F.lanePower_REQ l q.toNat
        ((t.lane l).move.isSome = true ∨ laneTarget l t = t.get F.lanePower_STATE l →
          exec (.lanePowerReqWrite l q) s = .next (settleResets t)) ∧
        ((t.lane l).move = none → laneTarget l t ≠ t.get F.lanePower_STATE l →
          exec (.lanePowerReqWrite l q) s =
            .next (settleResets (laneMove l (laneTarget l t) (t.get F.lanePower_STATE l == 2) t))))) ∧
    ((s.lane l).move = none → exec (.laneStateReached l) s = .next (settleResets s)) ∧
    (∀ dst t0 exit, (s.lane l).move = some (dst, t0, exit) →
      let u := (s.setLane l { s.lane l with move := none, prbsSince := s.frc }).puts l
        [(F.lanePower_STATE, dst), (F.lanePower_MOVING, 0)]
      let v := u.put F.lanePower_CAL_FAIL l 0
      let stands (t : State) : State := settleResets (laneGo l (if dst = 0 then
        trainTaps l (watchLanes (l / 8) (t.puts l [(F.laneStatus_SIG_DET, 1), (F.laneStatus_CDR_LOCK, 1)])) else t))
      (exit = false → exec (.laneStateReached l) s = .next (stands u)) ∧
      (exit = true → v.get F.laneRxeq_ADAPT l = 2 → exec (.laneStateReached l) s = .next (stands v)) ∧
      (exit = true → v.get F.laneRxeq_ADAPT l ≠ 2 → exec (.laneStateReached l) s = .next (stands (laneAdapt l v)))) ∧
    (∀ dst t0 exit, (s.lane l).move = some (dst, t0, exit) → exit = false →
      ∀ pll, exec (.laneCalTimeout l pll) s = .next (settleResets s)) ∧
    (∀ dst t0, (s.lane l).move = some (dst, t0, true) →
      (s.frc < t0 + 60000 → ∀ pll, exec (.laneCalTimeout l pll) s = .next (settleResets s)) ∧
      (t0 + 60000 ≤ s.frc →
        exec (.laneCalTimeout l false) s = .next (settleResets (raisePlain 0x0A (laneInst l)
          ((s.setLane l { s.lane l with move := none }).puts l
            [(F.lanePower_STATE, 2), (F.lanePower_MOVING, 0), (F.lanePower_CAL_FAIL, 1)]))) ∧
        exec (.laneCalTimeout l true) s = .next (settleResets (raisePlain 0x0B (instOf 0x02 (l / 8))
          (((rangeFrom (l / 8 * 8) 8).filter fun k => inExit k s &&
            ratePam (s.get F.laneCfg_RATE k) == ratePam (s.get F.laneCfg_RATE l)).foldl (fun s k => laneFail k s) s)))))

/-- A LANE_TXEQ write whose taps sum over 63, or that changes a tap during training, changes nothing, any other all taps
together, and training that it starts replaces them; ADAPT 11 adapts afresh and reads 00; CLEAR zeroes the four PRBS counts; the
checker locks, and after more than 512 errors loses lock, its counts brought up to then (R39, R40, R50 to R52). -/
def Obligations.LanesAdaptAndCheck : Prop :=
  ∀ (l : Nat) (s : State), Awake s → l < 1024 →
    (∀ v : Word,
      let x : ObjVal := v.zeroExtend 512
      let kept := ∀ f ∈ [F.laneTxeq_PRE3, F.laneTxeq_PRE2, F.laneTxeq_PRE1, F.laneTxeq_MAIN, F.laneTxeq_POST1],
        fldGet x f = s.get f l
      let t := s.setObj .laneTxeq l (mergeBits (s.obj .laneTxeq l) x (accMask .laneTxeq [.RW]))
      (63 < tapSum x ∨ (training l s = true ∧ ¬kept) → exec (.laneTxeqWrite l v) s = .next s) ∧
      (tapSum x ≤ 63 → training l s = true → kept → exec (.laneTxeqWrite l v) s = .next t) ∧
      (tapSum x ≤ 63 → training l s = false → exec (.laneTxeqWrite l v) s = .next (trainTaps l t))) ∧
    exec (.laneRxeqAdaptWrite l 3) s = .next (laneAdapt l (s.put F.laneRxeq_ADAPT l 0)) ∧
    (∀ a : BitVec 2, a ≠ 3 → exec (.laneRxeqAdaptWrite l a) s = .next (s.put F.laneRxeq_ADAPT l a.toNat)) ∧
    exec (.prbsClear l) s = .next (let t := s.puts l [(F.prbsCount_BIT_COUNT, 0), (F.prbsCount_ERR_COUNT, 0),
        (F.prbsCount_BIT_SAT, 0), (F.prbsCount_ERR_SAT, 0)]
      t.setLane l { t.lane l with prbsSince := t.frc }) ∧
    (s.get F.prbsCtrl_RX_PATTERN l = 0 ∨ s.on F.prbsCount_LOCK l = true → exec (.prbsLock l) s = .next s) ∧
    (s.get F.prbsCtrl_RX_PATTERN l ≠ 0 → s.on F.prbsCount_LOCK l = false →
      exec (.prbsLock l) s =
        .next ((s.put F.prbsCount_LOCK l 1).setLane l { s.lane l with prbsSince := s.frc })) ∧
    (∀ e, (s.on F.prbsCount_LOCK l = false ∨ e ≤ 512 → exec (.prbsLockLoss l e) s = .next s) ∧
      (s.on F.prbsCount_LOCK l = true → 512 < e →
        let t := prbsBitsUp (s.get F.laneCfg_RATE l) l s
        let u := t.addSat F.prbsCount_ERR_COUNT l e
        exec (.prbsLockLoss l e) s = .next ((if F.prbsCount_ERR_COUNT.max ≤ t.get F.prbsCount_ERR_COUNT l + e then
          u.put F.prbsCount_ERR_SAT l 1 else u).put F.prbsCount_LOCK l 0)))

/-- A group of a running flock lane moves the transmit lag by its stuff symbols where the lane sends it, and from a lag of 192 on
the transmitter replaces whole groups until the lag is 0; the receiver, where it has a signal, moves its lag and counts
violations and header errors; two good alignment markers give AM_LOCK, the first time with lags of 0, four bad ones in a row end
it (R45 to R50, R53, R54). -/
def Obligations.FlockLanesRun : Prop :=
  ∀ (l : Nat) (s : State), Awake s → l < 1024 →
    (laneMode l s ≠ 2 ∨ laneUp l s = false → (∀ a b c d, exec (.flockLaneGroupEnd l a b c d) s = .next s) ∧
      (∀ g q a, exec (.amMarkerReceive l g q a) s = .next s)) ∧
    (laneMode l s = 2 → laneUp l s = true →
      let x := s.lane l
      (∀ tx rx viol herr,
        let sent : State :=
          if sendsLine [l] s = false then s
          else if x.ovr = true then ((s.addSat F.laneStatus_STUFF_OVR l 1024).put F.laneStatus_STUFF_OVR_S l 1).setLane l
            { x with lagTx := x.lagTx - 64, ovr := x.lagTx - 64 != 0 }
          else s.setLane l { x with lagTx := x.lagTx + tx - 64, ovr := decide (192 ≤ x.lagTx + tx - 64) }
        let heard (b : Nat) : State :=
          watchLanes (l / 8) (sent.puts l [(F.laneStatus_SIG_DET, b), (F.laneStatus_CDR_LOCK, b)])
        exec (.flockLaneGroupEnd l tx none viol herr) s = .next (heard 0) ∧
        exec (.flockLaneGroupEnd l tx (some rx) viol herr) s = .next
          (let y := (heard 1).setLane l { (heard 1).lane l with lagRx := ((heard 1).lane l).lagRx + rx - 64 }
           (if viol = 0 then y else (y.addSat F.laneStatus_STUFF_VIOL l viol).put F.laneStatus_STUFF_VIOL_S l 1).addSat
             F.laneStatus_HDR_ERR l herr)) ∧
      (∀ q a,
        let y := { x with good := x.good + 1, bad := 0, mark := some (q % 65536, a) }
        let seen (t : State) : State := watchLanes (l / 8) (deskew (l / 8) t)
        (s.on F.laneStatus_AM_LOCK l = true ∨ x.good = 0 →
          exec (.amMarkerReceive l true q a) s = .next (seen (s.setLane l y))) ∧
        (s.on F.laneStatus_AM_LOCK l = false → x.good ≠ 0 → x.amSeen = true →
          exec (.amMarkerReceive l true q a) s = .next (seen ((s.setLane l y).put F.laneStatus_AM_LOCK l 1))) ∧
        (s.on F.laneStatus_AM_LOCK l = false → x.good ≠ 0 → x.amSeen = false →
          exec (.amMarkerReceive l true q a) s = .next (seen ((s.setLane l
            { y with lagTx := 0, lagRx := 0, ovr := false, amSeen := true }).put F.laneStatus_AM_LOCK l 1))) ∧
        (x.bad < 3 → exec (.amMarkerReceive l false q a) s = .next
          (s.setLane l { x with good := 0, bad := x.bad + 1 })) ∧
        (3 ≤ x.bad → exec (.amMarkerReceive l false q a) s = .next (watchLanes (l / 8)
          ((s.setLane l { x with good := 0, bad := x.bad + 1 }).put F.laneStatus_AM_LOCK l 0)))))

/-! ## Flock links (chapter 11) -/

/-- A framer sends a superframe with its overhead block, the blocks of its slots, a gap and a JC code that follow its offset from
SFCLK, and counts the justification, after a page switch that is due; the third block in a row that fits a candidate of the hunt
ends it; in frame a block at its place is taken with the superframe before it, the one without FAW is counted and the fourth in
a row starts the hunt; a near-end loopback receives what the octet has sent, and an octet whose lanes do not deliver receives
nothing (R49, R53, R252 to R257, R264, R265). -/
def Obligations.FlockLinksRun : Prop :=
  ∀ (o : Nat) (s : State), Awake s → o < 128 →
    (framerRuns o s = false → ∀ start tick, exec (.superframeStart o start tick) s = .next s) ∧
    (framerRuns o s = true → ∀ start tick : Nat,
      let e : Int := start - tick
      let a := txPageDo o s
      let t := if (a.link o).txMfc = 0 ∧ a.on F.linkStatus_SWITCH_PENDING o = true then
        a.setLink o { a.link o with announce := true } else a
      let sent (jc gap : Nat) (u : State) : State :=
        let r := slotsSent o (busyTxSlots o u) u
        let f : Superframe := ⟨r.1, List.replicate gap fillerPayload⟩
        let v := superframeOut o (overheadBlock o jc u) f r.2
        v.setLink o { v.link o with
          txMfc := ((a.link o).txMfc + 1) % 256, txLast := f, txBip := bip8 (overheadBlock o jc u) f }
      (32768 < e → exec (.superframeStart o start tick) s = .next (sent 2 0 (t.inc F.linkCount_JUST_NEG o))) ∧
      (e < -32768 → exec (.superframeStart o start tick) s = .next (sent 1 2 (t.inc F.linkCount_JUST_POS o))) ∧
      (-32768 ≤ e → e ≤ 32768 → exec (.superframeStart o start tick) s = .next (sent 0 1 t))) ∧
    ∀ (c : Bool) (faw : BitVec 32) (rest : BitVec 96) (x : Nat) (f : Superframe),
      let b := faw ++ rest
      (framerRuns o s = false ∨ octetDelivers o s = false ∨
          (hearsLoop (octetLanes o) s = false ∧ hearsLine (octetLanes o) s = false) →
        exec (.overheadBlockReceive o c faw rest x f.slots f.fillers) s = .next s) ∧
      (framerRuns o s = true → octetDelivers o s = true → hearsLoop (octetLanes o) s = true →
        ∀ y ys, (s.link o).loop = y :: ys → exec (.overheadBlockReceive o c faw rest x f.slots f.fillers) s =
          .next (overheadAt o true y.overhead x y.before (s.setLink o { s.link o with loop := ys }))) ∧
      (framerRuns o s = true → octetDelivers o s = true → hearsLoop (octetLanes o) s = false →
        hearsLine (octetLanes o) s = true →
        (s.on F.linkStatus_IN_FRAME o = false → isFaw c b = true →
          ((∃ k ∈ (s.link o).cands, k.1 = x ∧ mfcOf b = (k.2.1 + 1) % 256 ∧ 2 ≤ k.2.2) →
            exec (.overheadBlockReceive o c faw rest x f.slots f.fillers) s = .next (takePeer o b (acceptMfc o (mfcOf b)
              ((s.put F.linkStatus_IN_FRAME o 1).setLink o { s.link o with
                cands := [], base := mfcOf b, next := x + 2049 + gapOf b, lastOh := b, frameSince := s.frc })))) ∧
          ((s.link o).cands = [] → exec (.overheadBlockReceive o c faw rest x f.slots f.fillers) s = .next (s.setLink o
            { s.link o with cands := [(x + 2049 + gapOf b, mfcOf b, 1)] }))) ∧
        (s.on F.linkStatus_IN_FRAME o = true → x = (s.link o).next →
          (isFaw c b = true →
            exec (.overheadBlockReceive o c faw rest x f.slots f.fillers) s = .next (goodOverhead o b x f (superframeTaken o f s))) ∧
          (isFaw c b = false →
            exec (.overheadBlockReceive o c faw rest x f.slots f.fillers) s = .next (badOverhead o b x (superframeTaken o f s)))))

/-- A defect whose criterion holds is declared, and reported unless a defect to its left suppresses it; one whose criterion for
clearing holds clears. SWITCH waits for the next multiframe, then the transmit page switches, with two superframes in every
elastic store; the receive page follows three votes of four (R258 to R260, R264, R265). -/
def Obligations.LinkDefectsAndPagesFollow : Prop :=
  ∀ (o : Nat) (s : State), Awake s → o < 128 →
    (∀ d, d < 5 → framerRuns o s = true →
      (present o d s = false → criterion o d true s = true →
        let t := s.setLink o { s.link o with due := (s.link o).due.filter (· != (d, true)) }
        exec (.flockDefectDeclare o d) s = .next (let u := t.put (rawFld d) o 1
          if suppressed o d u = true then u else reportDefect o d u)) ∧
      (present o d s = true → criterion o d false s = true →
        exec (.flockDefectClear o d) s = .next (clearDefect o d
          (s.setLink o { s.link o with due := (s.link o).due.filter (· != (d, false)) })))) ∧
    (s.on F.linkStatus_SWITCH_PENDING o = false → standbyBad o s = false →
      exec (.linkPageSwitch o) s = .next (s.put F.linkStatus_SWITCH_PENDING o 1)) ∧
    (s.on F.linkStatus_SWITCH_PENDING o = true ∨ standbyBad o s = true → exec (.linkPageSwitch o) s = .next s) ∧
    (s.on F.linkStatus_SWITCH_PENDING o = true → (s.link o).announce = true → (s.link o).txMfc = 0 →
      let page := 1 - s.get F.linkStatus_TX_PAGE o
      let t := (s.puts o [(F.linkStatus_TX_PAGE, page), (F.linkStatus_SWITCH_PENDING, 0)]).setLink o
        { s.link o with announce := false }
      let u := { t with flock := { t.flock with stores := t.flock.stores.filter fun e => e.1 / 128 != o } }
      exec (.txPageSwitch o) s = .next (pageRecord o 0 page u) ∧ ∀ k < 128, (storeOf (o * 128 + k) u).held = [none, none]) ∧
    (∀ page, (s.link o).base = 255 → votedPage (s.link o).votes = some page → page ≠ s.get F.linkStatus_RX_PAGE o →
      exec (.rxPageSwitch o) s = .next (pageRecord o 1 page
        ((s.setLink o { s.link o with votes := [] }).put F.linkStatus_RX_PAGE o page)))
/-! ## Time (chapter 10) -/

/-- TOD_SET sets the ToD or steps it, NS over 999,999,999 changes nothing; with SRC 00 a write of SERVO_IN is a sample, else it
is ignored; the servo holds over when SAMPLE_TIMEOUT has passed while TRACKING; a loss of TREF, locked or not, clears its lock
and raises FS_TREF_LOSS once, a lock sets it and clears the level (R234 to R236). -/
def Obligations.TimeIsSetAndServed : Prop :=
  ∀ s : State, Awake s →
    (∀ (sec : BitVec 48) (ns : BitVec 32) (frac : BitVec 16),
      let now : Nat := (sec.toNat * 10 ^ 9 + ns.toNat) * 65536 + frac.toNat
      (999999999 < ns.toNat → exec (.todSetSet sec ns frac) s = .next s) ∧
      (ns.toNat ≤ 999999999 →
        exec (.todSetSet sec ns frac) s = .next (stepTod false ((now : Int) - s.tod16) (todOf16 now) s) ∧
        (setTo sec.toNat ns.toNat frac.toNat s).time.frc = s.time.frc)) ∧
    (∀ d : BitVec 64, exec (.todSetStep d) s = .next (stepTod false d.toInt
      (((s.time.tod : Int) + d.toInt * (2 ^ 8 * 10 ^ 9)) % (todPeriod : Int)).toNat s)) ∧
    (∀ d : BitVec 64,
      (s.get F.timeCfg_SRC 0 ≠ 0 → exec (.servoInWrite d) s = .next s) ∧
      (s.get F.timeCfg_SRC 0 = 0 →
        let t := (s.inc F.timeStatus_SAMPLES 0).puts 0
          [(F.timeStatus_LAST_OFFSET, ofSigned 32 (satSigned 32 (d.toInt / 65536))), (F.timeStatus_STATE, 1)]
        let u := { t with time := { t.time with lastSample := t.frc } }
        let thr := u.get F.timeCfg_STEP_THRESH 0
        let integ := clampFreq u (u.time.integ - (u.get F.timeCfg_KI 0 : Int) * d.toInt)
        let adj := clampFreq u (integ - (u.get F.timeCfg_KP 0 : Int) * d.toInt)
        (thr ≠ 0 → thr * 65536 ≤ d.toInt.natAbs → exec (.servoInWrite d) s = .next (stepBy true (-d.toInt) u)) ∧
        (thr = 0 ∨ d.toInt.natAbs < thr * 65536 →
          exec (.servoInWrite d) s = .next { u with time := { u.time with integ, adj } }))) ∧
    (s.get F.timeStatus_STATE 0 = 1 → s.time.lastSample + s.get F.timeCfg_SAMPLE_TIMEOUT 0 * 10 ^ 6 ≤ s.frc →
      exec .servoHoldover s = .next
        (let t := s.put F.timeStatus_STATE 0 2
         { t with time := { t.time with adj := s.time.integ } })) ∧
    (s.get F.timeStatus_STATE 0 ≠ 1 ∨ s.frc < s.time.lastSample + s.get F.timeCfg_SAMPLE_TIMEOUT 0 * 10 ^ 6 →
      exec .servoHoldover s = .next s) ∧
    (s.time.trefLost = false → exec .trefLoss s = .next
      (let t := s.puts 0 [(F.timeStatus_TREF_LOCK, 0), (F.timeStatus_TREF_LOST_S, 1)]
       raiseLevel 0x0C trefInst (some (0x20, 0, 0)) { t with time := { t.time with trefLost := true } })) ∧
    (s.time.trefLost = true → exec .trefLoss s = .next s) ∧
    exec .trefLock s = .next
      (let t := s.put F.timeStatus_TREF_LOCK 0 1
       clearLevel 0x0C trefInst { t with time := { t.time with trefLost := false } })

/-- The selected edge of PPS_IN within 500 ms of the last accepted one is a glitch, any other is captured; a pulse output has
its leading edge at its time, counts it, and ends the pulse WIDTH later; a read of TS_FIFO takes its oldest entry; once
SYNC_INTERVAL has passed a time record leaves on each running link with a time slot, and one that arrives whole on such a link
is taken (R241 to R248). -/
def Obligations.EdgesAndStampsFollow : Prop :=
  ∀ s : State, Awake s →
    (∀ falling : Bool,
      (s.on F.pps_EN 0 = false ∨ s.on F.pps_EDGE 0 ≠ falling → exec (.ppsEdge falling) s = .next s) ∧
      (s.on F.pps_EN 0 = true → s.on F.pps_EDGE 0 = falling →
        (∀ t, s.time.lastPps = some t → s.frc < t + 500000000 →
          exec (.ppsEdge falling) s = .next (s.inc F.pps_GLITCH 0)) ∧
        (s.time.lastPps = none ∨ (∃ t, s.time.lastPps = some t ∧ t + 500000000 ≤ s.frc) →
          let c := stampAdd s.tod16 (-(toSigned 32 (s.get F.pps_DELAY 0)) * 4096)
          let t := (s.puts 0 [(F.pps_CAP_SEC, stampSec c), (F.pps_CAP_NS, stampNs c), (F.pps_CAP_FRAC, stampFrac c)]).inc
            F.pps_COUNT 0
          let u := { t with time := { t.time with lastPps := some s.frc } }
          let n : Int := ((stampNs c * 65536 + stampFrac c : Nat) : Int)
          exec (.ppsEdge falling) s = .next (if u.get F.timeCfg_SRC 0 = 1 then
            servoSample (if stampNs c < 500000000 then n else n - 1000000000 * 65536) u else u)))) ∧
    (∀ n, n < 8 →
      (∀ t, (s.toutSt n).next = some t → (s.toutSt n).pulse = none → s.on F.tout_EN n = true → t ≤ s.todNs →
        exec (.toutEdge n) s = .next
          (let period := s.get F.tout_PERIOD n
           let pulse := some (s.frc + s.get F.tout_WIDTH n, s.on F.tout_POL n)
           (s.setTout n { next := if period ≠ 0 then some (t + period) else none, pulse, fired := true }).inc F.tout_EDGES n)) ∧
      (∀ t, (s.toutSt n).next = some t → s.todNs < t → exec (.toutEdge n) s = .next s) ∧
      (∀ e pol, (s.toutSt n).pulse = some (e, pol) →
        (e ≤ s.frc → exec (.toutPulseEnd n) s = .next (s.setTout n { s.toutSt n with pulse := none })) ∧
        (s.frc < e → exec (.toutPulseEnd n) s = .next s))) ∧
    exec .tsFifoRead s = .next { s with time := { s.time with fifo := s.time.fifo.tail } } ∧
    (∀ t, s.time.lastRecord = some t → s.frc < t + s.get F.flockTime_SYNC_INTERVAL 0 * 1000 →
      exec .timeRecordSend s = .next s) ∧
    ((∀ t, s.time.lastRecord = some t → t + s.get F.flockTime_SYNC_INTERVAL 0 * 1000 ≤ s.frc) →
      exec .timeRecordSend s = .next (((List.range 128).filter fun o => framerRuns o s && !(txSlots o 3 s).isEmpty).foldl
        (fun s o => timeRecordSent o (timeRecordOut o (timeRecordBits o s) s))
        { s with time := { s.time with lastRecord := some s.frc } })) ∧
    (∀ o, o < 128 → ∀ rec : BitVec 256,
      (∀ e, channelHears o 3 s = false → exec (.timeRecordReceive o rec e) s = .next s) ∧
      (hearsLoop (octetLanes o) s = false → exec (.timeRecordReceive o rec true) s = .next s) ∧
      (channelHears o 3 s = true → hearsLoop (octetLanes o) s = false → hearsLine (octetLanes o) s = true →
        let t := s.setTimeLink o { s.timeLink o with last := some (bits rec.toNat 255 240, s.tod16) }
        (s.get F.flockTime_UPSTREAM 0 ≠ o → exec (.timeRecordReceive o rec false) s = .next t) ∧
        (s.get F.flockTime_UPSTREAM 0 = o → s.get F.timeCfg_SRC 0 ≠ 2 →
          exec (.timeRecordReceive o rec false) s = .next (t.inc F.flockTime_IGNORED 0)) ∧
        (s.get F.flockTime_UPSTREAM 0 = o → s.get F.timeCfg_SRC 0 = 2 → bit rec.toNat 15 = true →
          bit rec.toNat 14 = true → ∀ seq t3,
          (s.timeLink o).sent.find? (fun x => x.1 == bits rec.toNat 239 224) = some (seq, t3) →
          let a : Int := (s.tod16 : Int) - (bitsStamp (bits rec.toNat 223 128) : Int)
          let b : Int := (bitsStamp (bits rec.toNat 127 32) : Int) - (t3 : Int)
          let u := (t.put F.flockTime_MEAN_DELAY 0 (min (2 ^ 32 - 1) (half (a + b)).toNat)).put F.flockTime_HOPS 0
            (min 63 (bits rec.toNat 21 16 + 1))
          exec (.timeRecordReceive o rec false) s =
            .next (servoSample (half (a - b) - toSigned 32 (u.get F.flockTime_ASYM 0)) u))))

/-! ## The host port (chapter 13) -/

/-- TAIL of a ring is stored with what host software wrote before it, through a command or through the ring's doorbell while the
link is up; the doorbells are those of PF1 at 0x1_0000 and 0x2_0000 and of PF2 at 0x1_0000, 16 bytes apart; EN from 0 to 1
zeroes HEAD and TAIL, unless PERST_N is asserted; EN 0 of a ring without a frame or a buffer begun turns it off (R297, R300,
R303, R366). -/
def Obligations.RingsAreDriven : Prop :=
  ∀ s : State, Awake s →
    (∀ (tail : BitVec 12) (mem : List HostWrite),
      let t := mem.foldl (fun s w => s.setHostBytes w.addr w.bytes) s
      let rings (door : TailPath) (place : Nat) (tx : Bool) (r : Nat) : Prop :=
        exec (.ringTailWrite door place tail mem) s = .next (t.put (ringTail tx) r tail.toNat)
      (∀ tx r, r < (if tx then 256 else 257) → rings (.command tx) r tx r) ∧
      (pcieUp s = true → (∀ r, r < 256 → rings (.doorbell 1) (0x10000 + 16 * r) false r ∧
          rings (.doorbell 1) (0x20000 + 16 * r) true r) ∧
        rings (.doorbell 2) 0x10000 false 256) ∧
      (pcieUp s = false → ∀ fn offset, fn < 4 → exec (.ringTailWrite (.doorbell fn) offset tail mem) s = .next t)) ∧
    (∀ r, r < 257 →
      (s.on F.rxRing_EN r = true → exec (.rxRingEnable r) s = .next s) ∧
      (s.sys.perst = true → exec (.rxRingEnable r) s = .next s) ∧
      (s.on F.rxRing_EN r = false → s.sys.perst = false → exec (.rxRingEnable r) s = .next
        (s.puts r [(F.rxRing_EN, 1), (F.rxRing_HEAD, 0), (F.rxRing_TAIL, 0)])) ∧
      (s.on F.rxRing_EN r = false → exec (.rxRingDisable r) s = .next s) ∧
      (s.on F.rxRing_EN r = true → waitingFrame r s = none → s.host.fill.find? (·.1 == r) = none →
        exec (.rxRingDisable r) s = .next (pump (refreshActive 1024 (s.put F.rxRing_EN r 0))))) ∧
    (∀ r, r < 256 →
      (s.on F.txRing_EN r = true → exec (.txRingEnable r) s = .next s) ∧
      (s.sys.perst = true → exec (.txRingEnable r) s = .next s) ∧
      (s.on F.txRing_EN r = false → s.sys.perst = false → exec (.txRingEnable r) s = .next
        (s.puts r [(F.txRing_EN, 1), (F.txRing_HEAD, 0), (F.txRing_TAIL, 0)])) ∧
      (s.on F.txRing_EN r = false → exec (.txRingDisable r) s = .next s) ∧
      (s.on F.txRing_EN r = true → (ringAvail true r s = 0 ∨ (txNext r s).isSome = true) →
        exec (.txRingDisable r) s = .next (s.put F.txRing_EN r 0)) ∧
      (s.on F.txRing_EN r = true → ringAvail true r s ≠ 0 → txNext r s = none → pcieUp s = true →
        exec (.txRingDisable r) s = .next
          (((txDone r (ringAvail true r s) 1 s).inc F.hostStatus_ABORTS 0).put F.txRing_EN r 0)))

/-- A waiting frame with enough descriptors is written to its ring, one without them is dropped at HOLD; the next TX ring's
frame is fetched and offered to port 1024 while the drove has a credit for it, or turned away as BAD; a filled record buffer
gets its descriptor; an access that fails is an error of the host port, and aborts its command or disables its ring, a TX ring
with the frame at HEAD ABORTED (R284, R299 to R303). -/
def Obligations.HostFramesMove : Prop :=
  ∀ s : State, PathAwake s →
    (∀ r f since, r < 256 → waitingFrame r s = some (f, since) →
      (∀ t, s.on F.rxRing_EN r = true → pcieUp s = true →
        descNeed r f.sendBody.length s ≤ ringAvail false r s →
        evalHop (instOf 0x0F 0) 0 f.sendBody.length s = (t, false) →
        exec (.hostRxDeliver r) s = .next
          (let n := f.sendBody.length
           let x := unstore f (rxWrite r f n n (descNeed r n s) false t)
           pump (refreshActive 1024 (notify (vecIdx 1 r)
             (finish x.1 tmSent 0 n (correctSent 1024 x.1 n x.2)))))) ∧
      (since + s.get F.rxRing_HOLD r * 1000 ≤ s.frc → ringAvail false r s < descNeed r f.sendBody.length s →
        exec (.hostRingHoldExpiry r) s = .next (pump (refreshActive 1024 (hostDrop f s))))) ∧
    (pcieUp s = false ∨ droveCredit 1024 s = false → exec .hostTxFetch s = .next s) ∧
    (∀ r n broken, pcieUp s = true → droveCredit 1024 s = true → txRingNext s = some r → txNext r s = some (n, broken) →
      let body := txBytes r n s
      let w2 := txWord r 0 2 s
      let bad := broken || body.length < 60 || 10236 < body.length ||
        (bit w2 60 && (1024 ≤ bits w2 59 49 || s.get F.portCfg_SPEED (bits w2 59 49) == 0))
      let t := { s with host := { s.host with lastTx := r } }
      (bad = true → exec .hostTxFetch s = .next
        (notify (vecIdx 1 (256 + r)) ((txDone r n 2 t).inc F.hostStatus_TX_BAD 0))) ∧
      (∀ u, bad = false →
        let f := txFrame w2 body (newId t).1 (newId t).2
        evalHop (instOf 0x0F 0) 0 f.bytes.length (notify (vecIdx 1 (256 + r)) (txDone r n 0 (newId t).2)) = (u, false) →
        exec .hostTxFetch s = .next { u with frames := u.frames ++ [f] })) ∧
    (exec (.recordDescriptorWrite 256) s = .next
      (fillWrite 256 (if s.get F.telemCfg_EXP_DEST 0 = 2 then s else packExport s.telem.fifo s))) ∧
    (∀ r, r < 256 → s.tab.notices = [] → exec (.recordDescriptorWrite r) s = .next (fillWrite r s)) ∧
    (∀ (fn r : Nat) (addr : BitVec 64), fn < 4 →
      (pcieUp s = false → exec (.hostDmaError fn r addr) s = .next s) ∧
      (pcieUp s = true →
        (fn = 1 → r < 256 → exec (.hostDmaError fn r addr) s = .next (rxDisableDo r (dmaError 1 r addr.toNat s))) ∧
        (let t := dmaError 1 r addr.toNat s
         fn = 1 → 256 ≤ r → r < 512 →
          (t.on F.txRing_EN (r - 256) = false → exec (.hostDmaError fn r addr) s = .next t) ∧
          (∀ n broken, t.on F.txRing_EN (r - 256) = true → txNext (r - 256) t = some (n, broken) →
            exec (.hostDmaError fn r addr) s = .next ((txAbort (r - 256) n t).put F.txRing_EN (r - 256) 0)) ∧
          (t.on F.txRing_EN (r - 256) = true → txNext (r - 256) t = none → exec (.hostDmaError fn r addr) s =
            .next ((txAbort (r - 256) (ringAvail true (r - 256) t) t).put F.txRing_EN (r - 256) 0))) ∧
        (let t := dmaError 0 r addr.toNat s
         ∀ h, fn = 0 → r < 64 → t.crook.held.find? (accesses r addr.toNat) = some h →
          exec (.hostDmaError fn r addr) s = .next (crookPump (completeHeld h.n stAborted 0 (abandon h.n t)))) ∧
        (fn = 2 → r = 256 → exec (.hostDmaError fn r addr) s = .next (rxDisableDo 256 (dmaError 2 256 addr.toNat s))) ∧
        (fn = 3 → exec (.hostDmaError fn r addr) s = .next (dmaError 3 r addr.toNat s))))

/-- A vector whose mask bit is clear sends its message, with the address and data of its MSI-X entry, when PENDING reaches COUNT
or HOLDOFF has passed since its oldest event, which zeroes PENDING; while it is masked or the link is down none goes; unmasking
it sends where either condition holds (R296, R304). -/
def Obligations.VectorsSend : Prop :=
  ∀ (v : Nat) (s : State), Awake s → v < Cls.vector.row.count →
    let sent (s : State) : State :=
      let t := (s.put F.vector_PENDING v 0).emit (.msi v (s.msix v).addr (s.msix v).data)
      { t with host := { t.host with oldest := dropKey t.host.oldest v } }
    let due := s.get F.vector_PENDING v ≠ 0 ∧
      lookD 0 s.host.oldest v + s.get F.vector_HOLDOFF v * 250 ≤ s.frc
    let full := s.get F.vector_COUNT v ≤ s.get F.vector_PENDING v
    ((s.msix v).masked = true ∨ pcieUp s = false →
      exec (.vectorNotify v) s = .next s ∧ exec (.vectorHoldoffExpiry v) s = .next s) ∧
    ((s.msix v).masked = false → pcieUp s = true →
      (full → exec (.vectorNotify v) s = .next (sent s)) ∧ (¬full → exec (.vectorNotify v) s = .next s) ∧
      (due → exec (.vectorHoldoffExpiry v) s = .next (sent s)) ∧ (¬due → exec (.vectorHoldoffExpiry v) s = .next s)) ∧
    ∀ (addr : BitVec 64) (data : BitVec 32),
      let t := s.setMsix v ⟨addr.toNat, data.toNat, false⟩
      (pcieUp s = false → exec (.vectorUnmask ⟨v, addr, data⟩) s = .next s) ∧
      (pcieUp s = true → full ∨ due → exec (.vectorUnmask ⟨v, addr, data⟩) s = .next (sent t)) ∧
      (pcieUp s = true → ¬full → ¬due → exec (.vectorUnmask ⟨v, addr, data⟩) s = .next t)
/-! ## The muster and flock management (chapters 9, 13, 17) -/

/-- At its tick an enabled muster with a place for the dump reads its list and writes the payload, or sends its first chunk; else
the tick is skipped and counted. A dump that is done gets its trailer, W1 to W3 and then W0, and its vector an event. 1 ms after
a chunk that failed it is sent again (R228 to R230, R305, R359). -/
def Obligations.MusterDumps : Prop :=
  ∀ s : State, Awake s →
    (s.on F.musterCfg_EN 0 = false ∨ s.flt.fatal = true ∨ s.frc < s.muster.nextTick →
      exec .musterTick s = .next s) ∧
    (s.on F.musterCfg_EN 0 = true → s.flt.fatal = false → s.muster.nextTick ≤ s.frc →
      let t := { s with muster := { s.muster with nextTick := musterTickAfter s } }
      (dumpTarget t = none → exec .musterTick s = .next
        ({ t with muster := { t.muster with lost := s.muster.lost + 1 } }.inc F.musterStatus_SKIPPED 0)) ∧
      (∀ addr ws read, dumpTarget t = some addr → musterEntries (t.get F.musterCfg_NLIST 0) 0 t = (ws, read) →
        let u := (evalWords (instOf 0x0C 3) (rangeFrom 0 ws.length) read).1
        let d : Dump := ⟨nextDump t, ws, t.todNs, t.todNs, u.muster.lost, addr, [], 0, none, none⟩
        let v := { u with muster := { u.muster with lastSeq := nextDump t, lost := 0, dump := some d } }
        exec .musterTick s = .next (match addr with
          | some a => dmaWords (a + 32) ws v
          | none => sendChunk { d with chunks := dumpChunks d v } v))) ∧
    (∀ d a, s.muster.dump = some d → d.addr = some a →
      let t := dmaWords (a + 32 + 8 * d.payload.length) [dumpW0 d] s
      exec .musterDumpComplete s = .next (notify (vecIdx 2 1) (setDump none
        (dmaWords a [dumpW0 d] (dmaWords (a + 8) (dumpHeader d t) t))))) ∧
    (∀ d t, s.muster.dump = some d → d.resend = some t →
      (t ≤ s.frc → exec .musterChunkResend s = .next (sendChunk d s)) ∧
      (s.frc < t → exec .musterChunkResend s = .next s))

/-- The shepherd challenges a device whose check is due; a reply quarantines it for the cause that R357 gives, or admits it, or
lets a member be; a challenge without an answer is a miss, the third miss of a member in a row makes it LOST, and any other miss
is tried again while the device has a route; a stray without an answer is lost (R357 to R359). -/
def Obligations.ShepherdAdmits : Prop :=
  ∀ (d : Nat) (s : State), Awake s → d < 1024 →
    (challenges s = true → d ≠ s.sys.devid → (routeOf d s).isSome = true → (s.memberSt d).op = none →
      checkDue d s = true → exec (.shepherdChallenge d) s = .next (startChallenge d s)) ∧
    (challenges s = false → exec (.shepherdChallenge d) s = .next s) ∧
    (∀ k dl ws, (s.memberSt d).op = some (.challenge k dl) →
      let signed := replySigned k ws
      let t := s.puts d [(F.memberDev_OBS_SERIAL, replySerial ws), (F.memberDev_OBS_FP, fingerprint (replyKey ws))]
      let u := if signed then t.put F.memberDev_BOOT_NONCE d (ws.getD 2 0).toNat else t
      let winS := if signed then (ws.getD 23 0).toNat % 2 ^ 63 else (u.memberSt d).winS
      let v := u.setMemberSt d { u.memberSt d with op := none, misses := 0, winS }
      (replyCause d k ws s ≠ 0 →
        exec (.challengeReply d ws) s = .next (quarantineDev d (replyCause d k ws s) none v)) ∧
      (replyCause d k ws s = 0 → memberState d v ≠ 2 ∨ (ws.getD 2 0).toNat ≠ s.get F.memberDev_BOOT_NONCE d →
        exec (.challengeReply d ws) s = .next (sendAdmit d 0 0 none true v)) ∧
      (replyCause d k ws s = 0 → memberState d v = 2 → (ws.getD 2 0).toNat = s.get F.memberDev_BOOT_NONCE d →
        exec (.challengeReply d ws) s = .next v)) ∧
    (∀ k dl, (s.memberSt d).op = some (.challenge k dl) →
      let t := s.setMemberSt d { s.memberSt d with op := none, misses := (s.memberSt d).misses + 1 }
      (s.frc < dl → exec (.challengeTimeout d) s = .next s) ∧
      (dl ≤ s.frc → memberState d s = 2 → 2 ≤ (s.memberSt d).misses → exec (.challengeTimeout d) s = .next
        ((setMemberState d 4 t).setMemberSt d { t.memberSt d with misses := 0 })) ∧
      (dl ≤ s.frc → memberState d s ≠ 2 ∨ (s.memberSt d).misses < 2 →
        exec (.challengeTimeout d) s = .next
          (if challenges s = true ∧ (routeOf d s).isSome = true then startChallenge d t else t))) ∧
    (∀ n dl, s.mgmt.notice = some (n, dl) → dl ≤ s.frc →
      exec .collectReplyTimeout s = .next (noticeLost n { s with mgmt := { s.mgmt with notice := none } }))

/-! ## Faults, the recorder and its flash (chapters 15, 16) -/

/-- An escalation window that has run out ends, sets ESCALATED, writes its record and takes the source's ACTION: ISOLATE or RESET
of each instance of its list, or FATAL; the action of an escalation that a ninth instance has made before is taken too; a level
source with TRANSIENT_OK whose LIVE clears stops its window. A record whose open time has passed closes, and waits for flash
where its REPEAT is not there (R323, R325, R334, R341). -/
def Obligations.EscalationAndRecordsEnd : Prop :=
  ∀ s : State, Awake s →
    (∀ src, src < 64 → (∀ d ∈ s.flt.due, d.src ≠ src) →
      let is := lookD [] s.flt.insts src
      let act := s.get F.srcCfg_ACTION src
      let t := notify (vecIdx 3 0) (recPlain 0x11 (src * 2 ^ 24 + act * 2 ^ 22 + is.length % 16 * 2 ^ 16) (is.headD 0)
        ((stopTimer src s).put F.srcStatus_ESCALATED src 1))
      let runs := s.on F.srcStatus_PENDING src = true ∧ ∃ e ∈ s.flt.timers, e.1 = src ∧ e.2 ≤ s.frc
      (¬runs → exec (.escalationExpiry src) s = .next s) ∧
      (runs → act = 0 →
        exec (.escalationExpiry src) s = .next ((is.flatMap (actedOn src)).foldl (fun s i => isolateInst i s) t)) ∧
      (runs → act = 1 → exec (.escalationExpiry src) s = .next (is.foldl (fun s i => resetInst i s) t)) ∧
      (runs → act = 2 → exec (.escalationExpiry src) s = .next (declareFatal src (is.headD 0) t)) ∧
      (runs → act = 3 → exec (.escalationExpiry src) s = .next t)) ∧
    (∀ src d, src < 64 → s.on F.srcStatus_PENDING src = false → s.flt.due = [d] → d.src = src →
      let t := { s with flt := { s.flt with due := [] } }
      (d.action = 0 → exec (.escalationExpiry src) s =
        .next ((d.insts.flatMap (actedOn src)).foldl (fun s i => isolateInst i s) t)) ∧
      (d.action = 1 → exec (.escalationExpiry src) s = .next (d.insts.foldl (fun s i => resetInst i s) t))) ∧
    (∀ src, src < 64 →
      let stops := srcLevel src = true ∧ s.on F.srcCfg_TRANSIENT_OK src = true ∧ s.on F.srcStatus_LIVE src = false ∧
        s.on F.srcStatus_PENDING src = true
      (stops → exec (.escalationTimerStop src) s = .next (stopTimer src s)) ∧
      (¬stops → exec (.escalationTimerStop src) s = .next s)) ∧
    (∀ q,
      let closed (e : LogEntry) : LogEntry :=
        if e.r.seq = q ∧ e.r.isOpen = true ∧ e.since + e.openMs * 10 ^ 6 ≤ s.frc then
          { e with r := { e.r with isOpen := false },
                   waiting := e.waiting || (if e.flying.isSome then e.flying else e.prog) != some e.r.rep }
        else e
      exec (.recordClose q) s = .next (startProgram { s with log := { s.log with recs := s.log.recs.map closed } }))

/-- A page program that ends puts its records in its block and the next program starts; a block whose program fails is bad, and
its records are programmed again elsewhere; compaction rewrites a block's latest copies at the tail and erases it; a patrol marks
the blocks that it names; a flash that fails is left to the on-chip log (R341 to R346). -/
def Obligations.FlashWorks : Prop :=
  ∀ s : State, Awake s →
    (s.flash.prog = none → exec .flashProgramDone s = .next (settleLog s)) ∧
    (∀ b rs, s.flash.prog = some (b, rs) →
      let t := addPage b rs { s with flash := { s.flash with prog := none } }
      (t.log.clears = [] ∨ t.log.cleared = true →
        exec .flashProgramDone s = .next (settleLog (startProgram t))) ∧
      (t.log.clears ≠ [] → t.log.cleared = false → exec .flashProgramDone s = .next (settleLog (tryClear t)))) ∧
    (∀ b rs, s.flash.prog = some (b, rs) → b < s.flash.nblocks → (s.block b).state ≠ 3 → s.flash.state = 1 →
      let seqs := blockSeqs b s ++ rs.map (·.seq)
      let again (e : LogEntry) : LogEntry :=
        if seqs.contains e.r.seq then { e with prog := none, flying := none, waiting := true } else e
      let t := { s with flash := { s.flash with prog := none }, log := { s.log with recs := s.log.recs.map again } }
      let v := recPlain 0x40 b 0 (t.setBlock b { s.block b with state := 3, refresh := false, spare := 0 })
      exec (.flashOpFail b false) s = .next (settleLog (if goodBlocks v < 32 then flashFailDo 2 v else startProgram v))) ∧
    (∀ b, b < s.flash.nblocks → (s.block b).state = 0 ∨ (s.block b).state = 2 → s.flash.state = 1 →
      let v := recPlain 0x40 b 1 (s.setBlock b { s.block b with state := 3, refresh := false, spare := 0 })
      exec (.flashOpFail b true) s = .next (settleLog (if goodBlocks v < 32 then flashFailDo 2 v else v))) ∧
    (mayProgram s = false ∨ compactBlock s = none → exec .flashCompaction s = .next s) ∧
    (∀ b, mayProgram s = true → compactBlock s = some b →
      let r := copyPages ((latestIn b s).length + 1) b (latestIn b s) s
      (r.1 ≠ [] → exec .flashCompaction s = .next r.2) ∧
      (r.1 = [] → exec .flashCompaction s = .next (r.2.setBlock b (erased r.2 (r.2.block b))))) ∧
    (∀ found,
      let hours (t : Nat) : Prop := t + s.get F.flashCfg_PATROL_H 0 * 3600 * 10 ^ 9 ≤ s.frc
      let due : Prop := s.flash.state = 1 ∧ s.sys.logReady = true ∧ ∀ t, s.flash.lastPatrol = some t → hours t
      (¬due → exec (.flashPatrol found) s = .next s) ∧
      (due → exec (.flashPatrol found) s = .next (found.foldl (fun s f => patrolOne f s)
        { s with flash := { s.flash with lastPatrol := some s.frc } }))) ∧
    (∀ cause,
      let fails : Prop := s.flash.state ≠ 3 ∧ s.on F.flashCfg_EN 0 = true ∧
        (cause = 0 ∨ (cause = 1 ∧ geometryOk s = false) ∨ (cause = 2 ∧ goodBlocks s < 32))
      (¬fails → exec (.flashFail cause) s = .next (settleLog s)) ∧
      (fails → exec (.flashFail cause) s = .next (settleLog (recPlain 0x41 cause 0 (setFlash 3 (cutProgram s))))))

/-! ## Rules of the whole machine -/

/-- A COMMIT of unit PENS whose PACE_CONTROL breaks 680 ≤ VCORE_MIN ≤ VCORE_FIXED ≤ VCORE_MAX ≤ 820 or 10 ≤ MARGIN ≤ 100
completes with BAD_PARAM, and the settings stay as they were (R17). -/
def Obligations.PensCommitIsChecked : Prop :=
  ∀ (r : Request) (h : Held) (ctx : Nat) (s : State), Starts r h ctx s →
    r.pkt.opcode = opCommit → unitsOf' r.pkt = some ([0x04], false) →
    let a := atAcceptance h.late (begun h ctx s)
    let lo := a.getSt F.paceControl_VCORE_MIN 0
    let fixed := a.getSt F.paceControl_VCORE_FIXED 0
    let hi := a.getSt F.paceControl_VCORE_MAX 0
    let margin := a.getSt F.paceControl_MARGIN 0
    ¬(680 ≤ lo ∧ lo ≤ fixed ∧ fixed ≤ hi ∧ hi ≤ 820 ∧ 10 ≤ margin ∧ margin ≤ 100) →
    exec (.commit r .clean) s = .next (settleLog (answered h (begun h ctx s) (stBadParam, []) (begun h ctx s)))

/-- Selector entry e matches when VALID is 1 and the probe vector agrees with KEY under MASK in all 512 bits; the matching entry
of the lowest index chooses the shape, and without one the shape is 0 (R95). -/
def Obligations.LowestMatchChoosesTheShape : Prop :=
  ∀ (pv : BitVec 512) (s : State),
    let matches_ (e : Nat) : Prop := s.get F.selCtrl_VALID e = 1 ∧
      ∀ k < 512, (selWords .selMask e s).getLsbD k = true → pv.getLsbD k = (selWords .selKey e s).getLsbD k
    (∀ e, e < Cls.selCtrl.row.count → matches_ e → (∀ k < e, ¬matches_ k) → selectShape pv s = s.get F.selCtrl_SHAPE e) ∧
    ((∀ e, e < Cls.selCtrl.row.count → ¬matches_ e) → selectShape pv s = 0)

/-- After a fatal fault no command of the frame path does anything, and a command of a packet that is neither READ, READ_DMA,
GET_INFO, RECORDER_READ, FAULT_ACK nor DEVICE_RESET, and that nothing earlier refuses, is answered BUSY (R329). -/
def Obligations.FatalStopsTheDevice : Prop :=
  ∀ s : State, s.flt.fatal = true →
    (∀ i : Instr, Sys2Proof.Machine.Instr.framePath i = true → (∀ e ∈ i.elements, e.1 < e.2) → exec i s = .next s) ∧
    (∀ h : Held, denied h s = false → badParam h s = false → s.get F.identStatus_STATE 0 ≠ 2 →
      (h.req.pkt.opcode ∈ [opRead, opReadDma, opGetInfo, opRecorderRead, opFaultAck, opDeviceReset] → verdict h s = none) ∧
      (h.req.pkt.opcode ∉ [opRead, opReadDma, opGetInfo, opRecorderRead, opFaultAck, opDeviceReset] →
        verdict h s = some stBusy))

/-- Whatever ASEQ values are offered to a replay window, it accepts none twice and never 0; at every point it accepts exactly
those above its high value, and those from 63 below it on that it has not accepted (R281). -/
def Obligations.ReplayWindowAcceptsOnce : Prop :=
  ∀ offered : List Nat,
    let run := offered.foldl (fun (x : List Nat × Window) a => match windowTake x.2 a with
      | some w => (x.1 ++ [a % 2 ^ 63], w)
      | none => x) (([], windowReset) : List Nat × Window)
    run.1.Nodup ∧ 0 ∉ run.1 ∧ (∀ a ∈ run.1, a ≤ run.2.high) ∧
    (∀ a, a < 2 ^ 63 → ((windowTake run.2 a).isSome = true ↔
      run.2.high < a ∨ (run.2.high ≤ a + 63 ∧ a ≤ run.2.high ∧ a ≠ 0 ∧ a ∉ run.1)))

/-- A held command with FENCE, or of the ORDERED class, does not start while an earlier one of its stream is held, nor does any
command behind an ORDERED one of its stream; a fenced command that finds one of its stream that did not reply OK replies
FENCE_BROKEN and has no effect of its own, whichever row it is of (R274, R275). -/
def Obligations.FencesOrderStreams : Prop :=
  ∀ (body : Body) (r : Request) (h e : Held) (s : State), waiting r s = some h →
    (∀ f, e ∈ s.crook.held → e.n < h.n → streamOf e.req.chan = streamOf h.req.chan →
      fences h.req.pkt = true ∨ opOrdered e.req.pkt.opcode = true → runRow true body r f s = s) ∧
    (∀ ctx, crookUp s = true → freeContext s = some ctx → mayStart' h s = true → admitWaits h.req.pkt s = false →
      verdict (h.inCtx ctx) (begun h ctx s) = none → lacksRoom (h.inCtx ctx) (begun h ctx s) = none →
      fences h.req.pkt = true → (∃ x ∈ s.crook.failed, x.1 = streamOf h.req.chan ∧ x.2 < h.n) →
      runRow true body r .clean s = answer h.n stFenceBroken [] (begun h ctx s))
/-! ## The stores -/

/-- What is written reads back: an object live or staged, and the bytes of host memory, whose other addresses read as before; an
object leaves every other object; and each write keeps the form of the stores, which the reset state has. -/
def Obligations.StoresReadBack : Prop :=
  Canonical State.reset ∧
    (∀ (s : State) (c c' : Cls) (i i' : Nat) (v : ObjVal), i < 2 ^ 32 → i' < 2 ^ 32 →
      (s.setObj c i v).obj c' i' = (if c = c' ∧ i = i' then v else s.obj c' i') ∧
      (s.setStagedObj c i v).stagedObj c' i' = (if c = c' ∧ i = i' then v else s.stagedObj c' i') ∧
      (Canonical s → Canonical (s.setObj c i v) ∧ Canonical (s.setStagedObj c i v))) ∧
    (∀ (s : State) (a : Nat) (bs : List Byte), bs.length ≤ 2 ^ 64 →
      (s.setHostBytes a bs).hostBytes a bs.length = bs ∧
      (∀ b, (∀ k < bs.length, (a + k) % 2 ^ 64 ≠ b % 2 ^ 64) → (s.setHostBytes a bs).hostByte b = s.hostByte b) ∧
      (Canonical s → Canonical (s.setHostBytes a bs)))
end

