-- ==== Sys2Proof/Laws/Commands.lean ====
section
/-! SUPPORT. Laws/Commands.lean: what a command of a packet that starts comes to: one lemma for the commands that act on the
device, which a statement about a row cites in place of unfolding the crook. -/

namespace Sys2Proof.Machine

open Sys2Proof

theorem waiting_pkt {r : Request} {s : State} {h : Held} (hw : waiting r s = some h) : h.req.pkt = r.pkt := by
  have hp := List.find?_some hw
  simp only [Bool.and_eq_true, beq_iff_eq] at hp
  exact hp.2

theorem waiting_chan {r : Request} {s : State} {h : Held} (hw : waiting r s = some h) : h.req.chan = r.chan := by
  have hp := List.find?_some hw
  simp only [Bool.and_eq_true, beq_iff_eq] at hp
  exact hp.1.2

@[simp] theorem setHeld_live (hs : List Held) (s : State) : (setHeld hs s).live = s.live := rfl
@[simp] theorem setHeld_sys (hs : List Held) (s : State) : (setHeld hs s).sys = s.sys := rfl
@[simp] theorem setHeld_held (hs : List Held) (s : State) : (setHeld hs s).crook.held = hs := rfl

@[simp] theorem begun_live (h : Held) (ctx : Nat) (s : State) : (begun h ctx s).live = s.live := by
  unfold begun fencePassed startIn waitsAt; split <;> rfl

@[simp] theorem begun_sys (h : Held) (ctx : Nat) (s : State) : (begun h ctx s).sys = s.sys := by
  unfold begun fencePassed startIn waitsAt; split <;> rfl

theorem shepherd_congr {s t : State} (h : s.live = t.live) : shepherd s = shepherd t := by
  simp only [shepherd, isShepherd, State.get, State.obj, h]

theorem isFlockCommit_begun (p : Packet) (h : Held) (ctx : Nat) (s : State) :
    isFlockCommit p (begun h ctx s) = isFlockCommit p s := by
  simp only [isFlockCommit, shepherd_congr (begun_live h ctx s)]

theorem elsewhere_begun (p : Packet) (h : Held) (ctx : Nat) (s : State) :
    elsewhere p (begun h ctx s) = elsewhere p s := by
  simp only [elsewhere, shepherd_congr (begun_live h ctx s), begun_sys]

/-- The context's number does not enter what the crook does with a command's packet. -/
@[simp] theorem Held.inCtx_n (h : Held) (ctx : Nat) : (h.inCtx ctx).n = h.n := rfl
@[simp] theorem Held.inCtx_req (h : Held) (ctx : Nat) : (h.inCtx ctx).req = h.req := rfl
@[simp] theorem Held.inCtx_late (h : Held) (ctx : Nat) : (h.inCtx ctx).late = h.late := rfl
@[simp] theorem Held.inCtx_frc (h : Held) (ctx : Nat) : (h.inCtx ctx).frc = h.frc := rfl
@[simp] theorem Held.inCtx_members (h : Held) (ctx : Nat) : (h.inCtx ctx).members = h.members := rfl

/-- A row that follows no microsteps runs the command on from the state in which it has started (R308). -/
theorem runStarted_clean (body : Body) (h : Held) (ctx : Nat) (s : State) :
    runStarted body (h.inCtx ctx) ctx false .clean (startIn h.n ctx (fencePassed h s)) =
      runOn body (h.inCtx ctx) false (begun h ctx s) := rfl

/-- A command that nothing refuses has its own effect, unless it resets the crook (R271, R284, R326). -/
theorem runOn_allowed {body : Body} {h : Held} {s : State} (hv : verdict h s = none) (hl : lacksRoom h s = none)
    (hr : resetsCrook h.req.pkt s = false) : runOn body h false s = settle h.n s (ownEffect body h none s) := by
  simp only [runOn, hv, hl, hr, Bool.false_eq_true, if_false]

/-- A command that starts and that nothing refuses, fetched cleanly, has its own effect (R271, R274, R284, R308). -/
theorem runRow_starts {r : Request} {h : Held} {ctx : Nat} {s : State} (st : Starts r h ctx s) (body : Body)
    (hf : isFlockCommit r.pkt s = false) (hc : r.pkt.opcode ≠ opUnitReset ∨ oidUnit r.pkt.obj ≠ 0x12) :
    runRow true body r .clean s = settle h.n (begun h ctx s) (body (h.inCtx ctx) none (begun h ctx s)) := by
  have hp := waiting_pkt st.held
  have hm := st.mine
  have hr : resetsCrook h.req.pkt (begun h ctx s) = false := by
    rcases hc with hc | hc <;> simp [resetsCrook, hp, hc]
  have hf' : isFlockCommit h.req.pkt (begun h ctx s) = false := by rw [isFlockCommit_begun, hp]; exact hf
  have ha : (shepherd (begun h ctx s) && h.req.pkt.v2 && h.req.pkt.bcast) = false :=
    st.alone.resolve_left (by rw [hf']; decide)
  have hb : runRow true body r .clean s = runOn body (h.inCtx ctx) false (begun h ctx s) := by
    simp only [runRow, st.up, st.held, startHeld, st.room, st.order, st.admitted, st.unbroken, Bool.not_true,
      Bool.or_false, Bool.not_false, Bool.and_true, if_true, Bool.false_eq_true, if_false]
    exact runStarted_clean ..
  rw [hb, runOn_allowed st.allowed st.fits hr, Held.inCtx_n]
  simp only [ownEffect, Held.inCtx_req, hm, hf', ha, Bool.false_eq_true, if_false]

/-- The packet of a row's opcode is one of the row. -/
theorem isRow_of {op : Nat} {r : Request} {h : Held} {ctx : Nat} {s : State} (st : Starts r h ctx s)
    (ho : r.pkt.opcode = op) (hc : isCollect r.pkt = false) (hf : isFlockCommit r.pkt s = false) :
    isRow op r.pkt s = true := by
  simp [isRow, ho, st.request, hc, hf]

theorem not_collect {p : Packet} (h : p.opcode ≠ opWrite) : isCollect p = false := by simp [isCollect, h]

theorem not_flockCommit {p : Packet} {s : State} (h : p.opcode ≠ opVersionCommit) : isFlockCommit p s = false := by
  simp [isFlockCommit, h]

@[simp] theorem settle_some (n : Nat) (old : State) (a : Answer) (t : State) :
    settle n old (some a, t) = settleOwn n a.1 a.2 (trackLate n old t) := rfl

@[simp] theorem settle_none (n : Nat) (old t : State) : settle n old (none, t) = trackLate n old t := rfl

theorem trackLate_of_staged {m : Nat} {old new : State} (h : new.staged = old.staged) : trackLate m old new = new := by
  have hn : stagedChanges old new = [] := by
    unfold stagedChanges
    rw [List.filterMap_eq_nil_iff]
    intro o _
    cases decodeOid o with
    | none => rfl
    | some ci => simp [State.stagedObj, h]
  simp [trackLate, hn]

theorem live_of_awake {f : State → State} {s : State} (h : Awake s) : live f s = f s := by simp [live, h]

theorem path_of_awake {f : State → State} {s : State} (h : PathAwake s) : path f s = f s := by simp [path, h.1, h.2]

theorem live_of_reset {f : State → State} {s : State} (h : s.sys.inReset = true) : live f s = s := by simp [live, h]

theorem path_of_stopped {f : State → State} {s : State} (h : s.sys.inReset = true ∨ s.flt.fatal = true) :
    path f s = s := by rcases h with h | h <;> simp [path, h]

theorem onIdx_next {c : Cls} {i : Nat} {s : State} {f : State → State} (h : i < c.row.count) :
    onIdx c i s f = .next (f s) := by simp [onIdx, onRange, h]
theorem onRange_next {n i : Nat} {s : State} {f : State → State} (h : i < n) :
    onRange n i s f = .next (f s) := by simp [onRange, h]
theorem onRange_none {n i : Nat} {s : State} {f : State → State} (h : n ≤ i) : onRange n i s f = .next s := by
  simp [onRange, Nat.not_lt.mpr h]
theorem onIdx_none {c : Cls} {i : Nat} {s : State} {f : State → State} (h : c.row.count ≤ i) :
    onIdx c i s f = .next s := onRange_none h
theorem onRange_answers (n i : Nat) (s : State) (f : State → State) : ∃ t, onRange n i s f = .next t := by
  unfold onRange; split <;> exact ⟨_, rfl⟩
theorem onIdx_answers (c : Cls) (i : Nat) (s : State) (f : State → State) : ∃ t, onIdx c i s f = .next t :=
  onRange_answers ..

/-! ## Runs of the table commands, once for each outcome -/

section runs

variable {p : Packet} {s t u : State} {loc : EmLoc} {e : EmEntry} {st : Nat}

theorem emInsertRun_ok (hok : emParamOk p s = true) (hev : emEval (emTable' p) (emKey' p) s = (t, false))
    (hi : emInsertDo (emTable' p) (emWide' p) (emKey' p) (pw p 0 % 2 ^ 22) (stagedVer t) t = .ok u)
    (hf : emFind (emTable' p) (emKey' p) (stagedVer t) u = some (loc, e)) :
    emInsertRun p s = ((stOk, [placeWord loc]), u) := by
  simp only [emInsertRun, hok, if_true, hev, Bool.false_eq_true, if_false, hi, emInserted, hf]

theorem emInsertRun_error (hok : emParamOk p s = true) (hev : emEval (emTable' p) (emKey' p) s = (t, false))
    (hi : emInsertDo (emTable' p) (emWide' p) (emKey' p) (pw p 0 % 2 ^ 22) (stagedVer t) t = .error st) :
    emInsertRun p s = ((st, []), if st = stNoSpace then t.inc F.emStatus_INSERT_FAIL 0 else t) := by
  simp only [emInsertRun, hok, if_true, hev, Bool.false_eq_true, if_false, hi, emInserted, beq_iff_eq]

theorem emDeleteRun_found (hok : emParamOk p s = true) (hev : emEval (emTable' p) (emKey' p) s = (t, false))
    (hf : emFind (emTable' p) (emKey' p) (stagedVer t) t = some (loc, e)) :
    emDeleteRun p s = ((stOk, []), emRetire loc e (stagedVer t) t) := by
  simp only [emDeleteRun, hok, hev, hf]
  rfl

theorem emDeleteRun_none (hok : emParamOk p s = true) (hev : emEval (emTable' p) (emKey' p) s = (t, false))
    (hf : emFind (emTable' p) (emKey' p) (stagedVer t) t = none) : emDeleteRun p s = ((stNotFound, []), t) := by
  simp only [emDeleteRun, hok, hev, hf]
  rfl

theorem emLookupRun_found (hok : emParamOk p s = true) (hev : emEval (emTable' p) (emKey' p) s = (t, false))
    (h4 : bits (pw p 0) 58 56 = 4) (hf : emFind (emTable' p) (emKey' p) (stagedVer t) t = some (loc, e)) :
    emLookupRun p s = ((stOk, placeWord loc :: entryWords e), t) := by
  simp only [emLookupRun, hok, hev, h4, beq_self_eq_true, if_true, hf]
  rfl

theorem emLookupRun_none (hok : emParamOk p s = true) (hev : emEval (emTable' p) (emKey' p) s = (t, false))
    (h4 : bits (pw p 0) 58 56 = 4) (hf : emFind (emTable' p) (emKey' p) (stagedVer t) t = none) :
    emLookupRun p s = ((stNotFound, []), t) := by
  simp only [emLookupRun, hok, hev, h4, beq_self_eq_true, if_true, hf]
  rfl

theorem tallyReadClearRun_found (hv : s.on F.emTable_VALID (emTable' p) = true) (hk : s.get F.emTable_KIND (emTable' p) = 1)
    (hev : emEval (emTable' p) (pw p 1 * 2 ^ 64 + pw p 2) s = (t, false))
    (hf : emFind (emTable' p) (pw p 1 * 2 ^ 64 + pw p 2) (currentVer t) t = some (loc, e)) :
    tallyReadClearRun p s = ((stOk, entryWords e), emWrite loc { e with raw := e.raw - bits e.raw 213 96 * 2 ^ 96 } t) := by
  simp only [tallyReadClearRun, hv, hk, hev, hf]
  rfl

end runs

end Sys2Proof.Machine
end

