-- ==== Sys2Proof/Laws/State.lean ====
section
/-! SUPPORT. Laws/State.lean: what each named update of State leaves as it was, one lemma for each field and update. -/

namespace Sys2Proof.Machine

open Sys2Proof

/-! ### State.setObj -/

@[simp] theorem State.setObj_pending (s : State) (c : Cls) (i : Nat) (v : ObjVal) : (s.setObj c i v).pending = s.pending := rfl
@[simp] theorem State.setObj_staged (s : State) (c : Cls) (i : Nat) (v : ObjVal) : (s.setObj c i v).staged = s.staged := rfl
@[simp] theorem State.setObj_hostMem (s : State) (c : Cls) (i : Nat) (v : ObjVal) : (s.setObj c i v).hostMem = s.hostMem := rfl
@[simp] theorem State.setObj_out (s : State) (c : Cls) (i : Nat) (v : ObjVal) : (s.setObj c i v).out = s.out := rfl
@[simp] theorem State.setObj_free (s : State) (c : Cls) (i : Nat) (v : ObjVal) : (s.setObj c i v).free = s.free := rfl
@[simp] theorem State.setObj_sys (s : State) (c : Cls) (i : Nat) (v : ObjVal) : (s.setObj c i v).sys = s.sys := rfl
@[simp] theorem State.setObj_time (s : State) (c : Cls) (i : Nat) (v : ObjVal) : (s.setObj c i v).time = s.time := rfl
@[simp] theorem State.setObj_log (s : State) (c : Cls) (i : Nat) (v : ObjVal) : (s.setObj c i v).log = s.log := rfl
@[simp] theorem State.setObj_flash (s : State) (c : Cls) (i : Nat) (v : ObjVal) : (s.setObj c i v).flash = s.flash := rfl
@[simp] theorem State.setObj_flt (s : State) (c : Cls) (i : Nat) (v : ObjVal) : (s.setObj c i v).flt = s.flt := rfl
@[simp] theorem State.setObj_pace (s : State) (c : Cls) (i : Nat) (v : ObjVal) : (s.setObj c i v).pace = s.pace := rfl
@[simp] theorem State.setObj_lanes (s : State) (c : Cls) (i : Nat) (v : ObjVal) : (s.setObj c i v).lanes = s.lanes := rfl
@[simp] theorem State.setObj_ports (s : State) (c : Cls) (i : Nat) (v : ObjVal) : (s.setObj c i v).ports = s.ports := rfl
@[simp] theorem State.setObj_host (s : State) (c : Cls) (i : Nat) (v : ObjVal) : (s.setObj c i v).host = s.host := rfl
@[simp] theorem State.setObj_tab (s : State) (c : Cls) (i : Nat) (v : ObjVal) : (s.setObj c i v).tab = s.tab := rfl
@[simp] theorem State.setObj_ver (s : State) (c : Cls) (i : Nat) (v : ObjVal) : (s.setObj c i v).ver = s.ver := rfl
@[simp] theorem State.setObj_frames (s : State) (c : Cls) (i : Nat) (v : ObjVal) : (s.setObj c i v).frames = s.frames := rfl
@[simp] theorem State.setObj_nextFrame (s : State) (c : Cls) (i : Nat) (v : ObjVal) : (s.setObj c i v).nextFrame = s.nextFrame := rfl
@[simp] theorem State.setObj_lastPen (s : State) (c : Cls) (i : Nat) (v : ObjVal) : (s.setObj c i v).lastPen = s.lastPen := rfl
@[simp] theorem State.setObj_fold (s : State) (c : Cls) (i : Nat) (v : ObjVal) : (s.setObj c i v).fold = s.fold := rfl
@[simp] theorem State.setObj_sched (s : State) (c : Cls) (i : Nat) (v : ObjVal) : (s.setObj c i v).sched = s.sched := rfl
@[simp] theorem State.setObj_perf (s : State) (c : Cls) (i : Nat) (v : ObjVal) : (s.setObj c i v).perf = s.perf := rfl
@[simp] theorem State.setObj_telem (s : State) (c : Cls) (i : Nat) (v : ObjVal) : (s.setObj c i v).telem = s.telem := rfl
@[simp] theorem State.setObj_flock (s : State) (c : Cls) (i : Nat) (v : ObjVal) : (s.setObj c i v).flock = s.flock := rfl
@[simp] theorem State.setObj_crook (s : State) (c : Cls) (i : Nat) (v : ObjVal) : (s.setObj c i v).crook = s.crook := rfl
@[simp] theorem State.setObj_mgmt (s : State) (c : Cls) (i : Nat) (v : ObjVal) : (s.setObj c i v).mgmt = s.mgmt := rfl
@[simp] theorem State.setObj_muster (s : State) (c : Cls) (i : Nat) (v : ObjVal) : (s.setObj c i v).muster = s.muster := rfl

/-! ### State.setStagedObj -/

@[simp] theorem State.setStagedObj_pending (s : State) (c : Cls) (i : Nat) (v : ObjVal) : (s.setStagedObj c i v).pending = s.pending := rfl
@[simp] theorem State.setStagedObj_live (s : State) (c : Cls) (i : Nat) (v : ObjVal) : (s.setStagedObj c i v).live = s.live := rfl
@[simp] theorem State.setStagedObj_hostMem (s : State) (c : Cls) (i : Nat) (v : ObjVal) : (s.setStagedObj c i v).hostMem = s.hostMem := rfl
@[simp] theorem State.setStagedObj_out (s : State) (c : Cls) (i : Nat) (v : ObjVal) : (s.setStagedObj c i v).out = s.out := rfl
@[simp] theorem State.setStagedObj_free (s : State) (c : Cls) (i : Nat) (v : ObjVal) : (s.setStagedObj c i v).free = s.free := rfl
@[simp] theorem State.setStagedObj_sys (s : State) (c : Cls) (i : Nat) (v : ObjVal) : (s.setStagedObj c i v).sys = s.sys := rfl
@[simp] theorem State.setStagedObj_time (s : State) (c : Cls) (i : Nat) (v : ObjVal) : (s.setStagedObj c i v).time = s.time := rfl
@[simp] theorem State.setStagedObj_log (s : State) (c : Cls) (i : Nat) (v : ObjVal) : (s.setStagedObj c i v).log = s.log := rfl
@[simp] theorem State.setStagedObj_flash (s : State) (c : Cls) (i : Nat) (v : ObjVal) : (s.setStagedObj c i v).flash = s.flash := rfl
@[simp] theorem State.setStagedObj_flt (s : State) (c : Cls) (i : Nat) (v : ObjVal) : (s.setStagedObj c i v).flt = s.flt := rfl
@[simp] theorem State.setStagedObj_pace (s : State) (c : Cls) (i : Nat) (v : ObjVal) : (s.setStagedObj c i v).pace = s.pace := rfl
@[simp] theorem State.setStagedObj_lanes (s : State) (c : Cls) (i : Nat) (v : ObjVal) : (s.setStagedObj c i v).lanes = s.lanes := rfl
@[simp] theorem State.setStagedObj_ports (s : State) (c : Cls) (i : Nat) (v : ObjVal) : (s.setStagedObj c i v).ports = s.ports := rfl
@[simp] theorem State.setStagedObj_host (s : State) (c : Cls) (i : Nat) (v : ObjVal) : (s.setStagedObj c i v).host = s.host := rfl
@[simp] theorem State.setStagedObj_tab (s : State) (c : Cls) (i : Nat) (v : ObjVal) : (s.setStagedObj c i v).tab = s.tab := rfl
@[simp] theorem State.setStagedObj_ver (s : State) (c : Cls) (i : Nat) (v : ObjVal) : (s.setStagedObj c i v).ver = s.ver := rfl
@[simp] theorem State.setStagedObj_frames (s : State) (c : Cls) (i : Nat) (v : ObjVal) : (s.setStagedObj c i v).frames = s.frames := rfl
@[simp] theorem State.setStagedObj_nextFrame (s : State) (c : Cls) (i : Nat) (v : ObjVal) : (s.setStagedObj c i v).nextFrame = s.nextFrame := rfl
@[simp] theorem State.setStagedObj_lastPen (s : State) (c : Cls) (i : Nat) (v : ObjVal) : (s.setStagedObj c i v).lastPen = s.lastPen := rfl
@[simp] theorem State.setStagedObj_fold (s : State) (c : Cls) (i : Nat) (v : ObjVal) : (s.setStagedObj c i v).fold = s.fold := rfl
@[simp] theorem State.setStagedObj_sched (s : State) (c : Cls) (i : Nat) (v : ObjVal) : (s.setStagedObj c i v).sched = s.sched := rfl
@[simp] theorem State.setStagedObj_perf (s : State) (c : Cls) (i : Nat) (v : ObjVal) : (s.setStagedObj c i v).perf = s.perf := rfl
@[simp] theorem State.setStagedObj_telem (s : State) (c : Cls) (i : Nat) (v : ObjVal) : (s.setStagedObj c i v).telem = s.telem := rfl
@[simp] theorem State.setStagedObj_flock (s : State) (c : Cls) (i : Nat) (v : ObjVal) : (s.setStagedObj c i v).flock = s.flock := rfl
@[simp] theorem State.setStagedObj_crook (s : State) (c : Cls) (i : Nat) (v : ObjVal) : (s.setStagedObj c i v).crook = s.crook := rfl
@[simp] theorem State.setStagedObj_mgmt (s : State) (c : Cls) (i : Nat) (v : ObjVal) : (s.setStagedObj c i v).mgmt = s.mgmt := rfl
@[simp] theorem State.setStagedObj_muster (s : State) (c : Cls) (i : Nat) (v : ObjVal) : (s.setStagedObj c i v).muster = s.muster := rfl

/-! ### State.put -/

@[simp] theorem State.put_pending (s : State) (f : Fld) (i x : Nat) : (s.put f i x).pending = s.pending := rfl
@[simp] theorem State.put_staged (s : State) (f : Fld) (i x : Nat) : (s.put f i x).staged = s.staged := rfl
@[simp] theorem State.put_hostMem (s : State) (f : Fld) (i x : Nat) : (s.put f i x).hostMem = s.hostMem := rfl
@[simp] theorem State.put_out (s : State) (f : Fld) (i x : Nat) : (s.put f i x).out = s.out := rfl
@[simp] theorem State.put_free (s : State) (f : Fld) (i x : Nat) : (s.put f i x).free = s.free := rfl
@[simp] theorem State.put_sys (s : State) (f : Fld) (i x : Nat) : (s.put f i x).sys = s.sys := rfl
@[simp] theorem State.put_time (s : State) (f : Fld) (i x : Nat) : (s.put f i x).time = s.time := rfl
@[simp] theorem State.put_log (s : State) (f : Fld) (i x : Nat) : (s.put f i x).log = s.log := rfl
@[simp] theorem State.put_flash (s : State) (f : Fld) (i x : Nat) : (s.put f i x).flash = s.flash := rfl
@[simp] theorem State.put_flt (s : State) (f : Fld) (i x : Nat) : (s.put f i x).flt = s.flt := rfl
@[simp] theorem State.put_pace (s : State) (f : Fld) (i x : Nat) : (s.put f i x).pace = s.pace := rfl
@[simp] theorem State.put_lanes (s : State) (f : Fld) (i x : Nat) : (s.put f i x).lanes = s.lanes := rfl
@[simp] theorem State.put_ports (s : State) (f : Fld) (i x : Nat) : (s.put f i x).ports = s.ports := rfl
@[simp] theorem State.put_host (s : State) (f : Fld) (i x : Nat) : (s.put f i x).host = s.host := rfl
@[simp] theorem State.put_tab (s : State) (f : Fld) (i x : Nat) : (s.put f i x).tab = s.tab := rfl
@[simp] theorem State.put_ver (s : State) (f : Fld) (i x : Nat) : (s.put f i x).ver = s.ver := rfl
@[simp] theorem State.put_frames (s : State) (f : Fld) (i x : Nat) : (s.put f i x).frames = s.frames := rfl
@[simp] theorem State.put_nextFrame (s : State) (f : Fld) (i x : Nat) : (s.put f i x).nextFrame = s.nextFrame := rfl
@[simp] theorem State.put_lastPen (s : State) (f : Fld) (i x : Nat) : (s.put f i x).lastPen = s.lastPen := rfl
@[simp] theorem State.put_fold (s : State) (f : Fld) (i x : Nat) : (s.put f i x).fold = s.fold := rfl
@[simp] theorem State.put_sched (s : State) (f : Fld) (i x : Nat) : (s.put f i x).sched = s.sched := rfl
@[simp] theorem State.put_perf (s : State) (f : Fld) (i x : Nat) : (s.put f i x).perf = s.perf := rfl
@[simp] theorem State.put_telem (s : State) (f : Fld) (i x : Nat) : (s.put f i x).telem = s.telem := rfl
@[simp] theorem State.put_flock (s : State) (f : Fld) (i x : Nat) : (s.put f i x).flock = s.flock := rfl
@[simp] theorem State.put_crook (s : State) (f : Fld) (i x : Nat) : (s.put f i x).crook = s.crook := rfl
@[simp] theorem State.put_mgmt (s : State) (f : Fld) (i x : Nat) : (s.put f i x).mgmt = s.mgmt := rfl
@[simp] theorem State.put_muster (s : State) (f : Fld) (i x : Nat) : (s.put f i x).muster = s.muster := rfl

/-! ### State.putSt -/

@[simp] theorem State.putSt_pending (s : State) (f : Fld) (i x : Nat) : (s.putSt f i x).pending = s.pending := rfl
@[simp] theorem State.putSt_live (s : State) (f : Fld) (i x : Nat) : (s.putSt f i x).live = s.live := rfl
@[simp] theorem State.putSt_hostMem (s : State) (f : Fld) (i x : Nat) : (s.putSt f i x).hostMem = s.hostMem := rfl
@[simp] theorem State.putSt_out (s : State) (f : Fld) (i x : Nat) : (s.putSt f i x).out = s.out := rfl
@[simp] theorem State.putSt_free (s : State) (f : Fld) (i x : Nat) : (s.putSt f i x).free = s.free := rfl
@[simp] theorem State.putSt_sys (s : State) (f : Fld) (i x : Nat) : (s.putSt f i x).sys = s.sys := rfl
@[simp] theorem State.putSt_time (s : State) (f : Fld) (i x : Nat) : (s.putSt f i x).time = s.time := rfl
@[simp] theorem State.putSt_log (s : State) (f : Fld) (i x : Nat) : (s.putSt f i x).log = s.log := rfl
@[simp] theorem State.putSt_flash (s : State) (f : Fld) (i x : Nat) : (s.putSt f i x).flash = s.flash := rfl
@[simp] theorem State.putSt_flt (s : State) (f : Fld) (i x : Nat) : (s.putSt f i x).flt = s.flt := rfl
@[simp] theorem State.putSt_pace (s : State) (f : Fld) (i x : Nat) : (s.putSt f i x).pace = s.pace := rfl
@[simp] theorem State.putSt_lanes (s : State) (f : Fld) (i x : Nat) : (s.putSt f i x).lanes = s.lanes := rfl
@[simp] theorem State.putSt_ports (s : State) (f : Fld) (i x : Nat) : (s.putSt f i x).ports = s.ports := rfl
@[simp] theorem State.putSt_host (s : State) (f : Fld) (i x : Nat) : (s.putSt f i x).host = s.host := rfl
@[simp] theorem State.putSt_tab (s : State) (f : Fld) (i x : Nat) : (s.putSt f i x).tab = s.tab := rfl
@[simp] theorem State.putSt_ver (s : State) (f : Fld) (i x : Nat) : (s.putSt f i x).ver = s.ver := rfl
@[simp] theorem State.putSt_frames (s : State) (f : Fld) (i x : Nat) : (s.putSt f i x).frames = s.frames := rfl
@[simp] theorem State.putSt_nextFrame (s : State) (f : Fld) (i x : Nat) : (s.putSt f i x).nextFrame = s.nextFrame := rfl
@[simp] theorem State.putSt_lastPen (s : State) (f : Fld) (i x : Nat) : (s.putSt f i x).lastPen = s.lastPen := rfl
@[simp] theorem State.putSt_fold (s : State) (f : Fld) (i x : Nat) : (s.putSt f i x).fold = s.fold := rfl
@[simp] theorem State.putSt_sched (s : State) (f : Fld) (i x : Nat) : (s.putSt f i x).sched = s.sched := rfl
@[simp] theorem State.putSt_perf (s : State) (f : Fld) (i x : Nat) : (s.putSt f i x).perf = s.perf := rfl
@[simp] theorem State.putSt_telem (s : State) (f : Fld) (i x : Nat) : (s.putSt f i x).telem = s.telem := rfl
@[simp] theorem State.putSt_flock (s : State) (f : Fld) (i x : Nat) : (s.putSt f i x).flock = s.flock := rfl
@[simp] theorem State.putSt_crook (s : State) (f : Fld) (i x : Nat) : (s.putSt f i x).crook = s.crook := rfl
@[simp] theorem State.putSt_mgmt (s : State) (f : Fld) (i x : Nat) : (s.putSt f i x).mgmt = s.mgmt := rfl
@[simp] theorem State.putSt_muster (s : State) (f : Fld) (i x : Nat) : (s.putSt f i x).muster = s.muster := rfl

/-! ### State.addSat -/

@[simp] theorem State.addSat_pending (s : State) (f : Fld) (i n : Nat) : (s.addSat f i n).pending = s.pending := rfl
@[simp] theorem State.addSat_staged (s : State) (f : Fld) (i n : Nat) : (s.addSat f i n).staged = s.staged := rfl
@[simp] theorem State.addSat_hostMem (s : State) (f : Fld) (i n : Nat) : (s.addSat f i n).hostMem = s.hostMem := rfl
@[simp] theorem State.addSat_out (s : State) (f : Fld) (i n : Nat) : (s.addSat f i n).out = s.out := rfl
@[simp] theorem State.addSat_free (s : State) (f : Fld) (i n : Nat) : (s.addSat f i n).free = s.free := rfl
@[simp] theorem State.addSat_sys (s : State) (f : Fld) (i n : Nat) : (s.addSat f i n).sys = s.sys := rfl
@[simp] theorem State.addSat_time (s : State) (f : Fld) (i n : Nat) : (s.addSat f i n).time = s.time := rfl
@[simp] theorem State.addSat_log (s : State) (f : Fld) (i n : Nat) : (s.addSat f i n).log = s.log := rfl
@[simp] theorem State.addSat_flash (s : State) (f : Fld) (i n : Nat) : (s.addSat f i n).flash = s.flash := rfl
@[simp] theorem State.addSat_flt (s : State) (f : Fld) (i n : Nat) : (s.addSat f i n).flt = s.flt := rfl
@[simp] theorem State.addSat_pace (s : State) (f : Fld) (i n : Nat) : (s.addSat f i n).pace = s.pace := rfl
@[simp] theorem State.addSat_lanes (s : State) (f : Fld) (i n : Nat) : (s.addSat f i n).lanes = s.lanes := rfl
@[simp] theorem State.addSat_ports (s : State) (f : Fld) (i n : Nat) : (s.addSat f i n).ports = s.ports := rfl
@[simp] theorem State.addSat_host (s : State) (f : Fld) (i n : Nat) : (s.addSat f i n).host = s.host := rfl
@[simp] theorem State.addSat_tab (s : State) (f : Fld) (i n : Nat) : (s.addSat f i n).tab = s.tab := rfl
@[simp] theorem State.addSat_ver (s : State) (f : Fld) (i n : Nat) : (s.addSat f i n).ver = s.ver := rfl
@[simp] theorem State.addSat_frames (s : State) (f : Fld) (i n : Nat) : (s.addSat f i n).frames = s.frames := rfl
@[simp] theorem State.addSat_nextFrame (s : State) (f : Fld) (i n : Nat) : (s.addSat f i n).nextFrame = s.nextFrame := rfl
@[simp] theorem State.addSat_lastPen (s : State) (f : Fld) (i n : Nat) : (s.addSat f i n).lastPen = s.lastPen := rfl
@[simp] theorem State.addSat_fold (s : State) (f : Fld) (i n : Nat) : (s.addSat f i n).fold = s.fold := rfl
@[simp] theorem State.addSat_sched (s : State) (f : Fld) (i n : Nat) : (s.addSat f i n).sched = s.sched := rfl
@[simp] theorem State.addSat_perf (s : State) (f : Fld) (i n : Nat) : (s.addSat f i n).perf = s.perf := rfl
@[simp] theorem State.addSat_telem (s : State) (f : Fld) (i n : Nat) : (s.addSat f i n).telem = s.telem := rfl
@[simp] theorem State.addSat_flock (s : State) (f : Fld) (i n : Nat) : (s.addSat f i n).flock = s.flock := rfl
@[simp] theorem State.addSat_crook (s : State) (f : Fld) (i n : Nat) : (s.addSat f i n).crook = s.crook := rfl
@[simp] theorem State.addSat_mgmt (s : State) (f : Fld) (i n : Nat) : (s.addSat f i n).mgmt = s.mgmt := rfl
@[simp] theorem State.addSat_muster (s : State) (f : Fld) (i n : Nat) : (s.addSat f i n).muster = s.muster := rfl

/-! ### State.inc -/

@[simp] theorem State.inc_pending (s : State) (f : Fld) (i : Nat) : (s.inc f i).pending = s.pending := rfl
@[simp] theorem State.inc_staged (s : State) (f : Fld) (i : Nat) : (s.inc f i).staged = s.staged := rfl
@[simp] theorem State.inc_hostMem (s : State) (f : Fld) (i : Nat) : (s.inc f i).hostMem = s.hostMem := rfl
@[simp] theorem State.inc_out (s : State) (f : Fld) (i : Nat) : (s.inc f i).out = s.out := rfl
@[simp] theorem State.inc_free (s : State) (f : Fld) (i : Nat) : (s.inc f i).free = s.free := rfl
@[simp] theorem State.inc_sys (s : State) (f : Fld) (i : Nat) : (s.inc f i).sys = s.sys := rfl
@[simp] theorem State.inc_time (s : State) (f : Fld) (i : Nat) : (s.inc f i).time = s.time := rfl
@[simp] theorem State.inc_log (s : State) (f : Fld) (i : Nat) : (s.inc f i).log = s.log := rfl
@[simp] theorem State.inc_flash (s : State) (f : Fld) (i : Nat) : (s.inc f i).flash = s.flash := rfl
@[simp] theorem State.inc_flt (s : State) (f : Fld) (i : Nat) : (s.inc f i).flt = s.flt := rfl
@[simp] theorem State.inc_pace (s : State) (f : Fld) (i : Nat) : (s.inc f i).pace = s.pace := rfl
@[simp] theorem State.inc_lanes (s : State) (f : Fld) (i : Nat) : (s.inc f i).lanes = s.lanes := rfl
@[simp] theorem State.inc_ports (s : State) (f : Fld) (i : Nat) : (s.inc f i).ports = s.ports := rfl
@[simp] theorem State.inc_host (s : State) (f : Fld) (i : Nat) : (s.inc f i).host = s.host := rfl
@[simp] theorem State.inc_tab (s : State) (f : Fld) (i : Nat) : (s.inc f i).tab = s.tab := rfl
@[simp] theorem State.inc_ver (s : State) (f : Fld) (i : Nat) : (s.inc f i).ver = s.ver := rfl
@[simp] theorem State.inc_frames (s : State) (f : Fld) (i : Nat) : (s.inc f i).frames = s.frames := rfl
@[simp] theorem State.inc_nextFrame (s : State) (f : Fld) (i : Nat) : (s.inc f i).nextFrame = s.nextFrame := rfl
@[simp] theorem State.inc_lastPen (s : State) (f : Fld) (i : Nat) : (s.inc f i).lastPen = s.lastPen := rfl
@[simp] theorem State.inc_fold (s : State) (f : Fld) (i : Nat) : (s.inc f i).fold = s.fold := rfl
@[simp] theorem State.inc_sched (s : State) (f : Fld) (i : Nat) : (s.inc f i).sched = s.sched := rfl
@[simp] theorem State.inc_perf (s : State) (f : Fld) (i : Nat) : (s.inc f i).perf = s.perf := rfl
@[simp] theorem State.inc_telem (s : State) (f : Fld) (i : Nat) : (s.inc f i).telem = s.telem := rfl
@[simp] theorem State.inc_flock (s : State) (f : Fld) (i : Nat) : (s.inc f i).flock = s.flock := rfl
@[simp] theorem State.inc_crook (s : State) (f : Fld) (i : Nat) : (s.inc f i).crook = s.crook := rfl
@[simp] theorem State.inc_mgmt (s : State) (f : Fld) (i : Nat) : (s.inc f i).mgmt = s.mgmt := rfl
@[simp] theorem State.inc_muster (s : State) (f : Fld) (i : Nat) : (s.inc f i).muster = s.muster := rfl

/-! ### State.addWrap -/

@[simp] theorem State.addWrap_pending (s : State) (f : Fld) (i n : Nat) : (s.addWrap f i n).pending = s.pending := rfl
@[simp] theorem State.addWrap_staged (s : State) (f : Fld) (i n : Nat) : (s.addWrap f i n).staged = s.staged := rfl
@[simp] theorem State.addWrap_hostMem (s : State) (f : Fld) (i n : Nat) : (s.addWrap f i n).hostMem = s.hostMem := rfl
@[simp] theorem State.addWrap_out (s : State) (f : Fld) (i n : Nat) : (s.addWrap f i n).out = s.out := rfl
@[simp] theorem State.addWrap_free (s : State) (f : Fld) (i n : Nat) : (s.addWrap f i n).free = s.free := rfl
@[simp] theorem State.addWrap_sys (s : State) (f : Fld) (i n : Nat) : (s.addWrap f i n).sys = s.sys := rfl
@[simp] theorem State.addWrap_time (s : State) (f : Fld) (i n : Nat) : (s.addWrap f i n).time = s.time := rfl
@[simp] theorem State.addWrap_log (s : State) (f : Fld) (i n : Nat) : (s.addWrap f i n).log = s.log := rfl
@[simp] theorem State.addWrap_flash (s : State) (f : Fld) (i n : Nat) : (s.addWrap f i n).flash = s.flash := rfl
@[simp] theorem State.addWrap_flt (s : State) (f : Fld) (i n : Nat) : (s.addWrap f i n).flt = s.flt := rfl
@[simp] theorem State.addWrap_pace (s : State) (f : Fld) (i n : Nat) : (s.addWrap f i n).pace = s.pace := rfl
@[simp] theorem State.addWrap_lanes (s : State) (f : Fld) (i n : Nat) : (s.addWrap f i n).lanes = s.lanes := rfl
@[simp] theorem State.addWrap_ports (s : State) (f : Fld) (i n : Nat) : (s.addWrap f i n).ports = s.ports := rfl
@[simp] theorem State.addWrap_host (s : State) (f : Fld) (i n : Nat) : (s.addWrap f i n).host = s.host := rfl
@[simp] theorem State.addWrap_tab (s : State) (f : Fld) (i n : Nat) : (s.addWrap f i n).tab = s.tab := rfl
@[simp] theorem State.addWrap_ver (s : State) (f : Fld) (i n : Nat) : (s.addWrap f i n).ver = s.ver := rfl
@[simp] theorem State.addWrap_frames (s : State) (f : Fld) (i n : Nat) : (s.addWrap f i n).frames = s.frames := rfl
@[simp] theorem State.addWrap_nextFrame (s : State) (f : Fld) (i n : Nat) : (s.addWrap f i n).nextFrame = s.nextFrame := rfl
@[simp] theorem State.addWrap_lastPen (s : State) (f : Fld) (i n : Nat) : (s.addWrap f i n).lastPen = s.lastPen := rfl
@[simp] theorem State.addWrap_fold (s : State) (f : Fld) (i n : Nat) : (s.addWrap f i n).fold = s.fold := rfl
@[simp] theorem State.addWrap_sched (s : State) (f : Fld) (i n : Nat) : (s.addWrap f i n).sched = s.sched := rfl
@[simp] theorem State.addWrap_perf (s : State) (f : Fld) (i n : Nat) : (s.addWrap f i n).perf = s.perf := rfl
@[simp] theorem State.addWrap_telem (s : State) (f : Fld) (i n : Nat) : (s.addWrap f i n).telem = s.telem := rfl
@[simp] theorem State.addWrap_flock (s : State) (f : Fld) (i n : Nat) : (s.addWrap f i n).flock = s.flock := rfl
@[simp] theorem State.addWrap_crook (s : State) (f : Fld) (i n : Nat) : (s.addWrap f i n).crook = s.crook := rfl
@[simp] theorem State.addWrap_mgmt (s : State) (f : Fld) (i n : Nat) : (s.addWrap f i n).mgmt = s.mgmt := rfl
@[simp] theorem State.addWrap_muster (s : State) (f : Fld) (i n : Nat) : (s.addWrap f i n).muster = s.muster := rfl

/-! ### State.putFree -/

@[simp] theorem State.putFree_pending (s : State) (f : Fld) (i : Nat) : (s.putFree f i).pending = s.pending := rfl
@[simp] theorem State.putFree_staged (s : State) (f : Fld) (i : Nat) : (s.putFree f i).staged = s.staged := rfl
@[simp] theorem State.putFree_hostMem (s : State) (f : Fld) (i : Nat) : (s.putFree f i).hostMem = s.hostMem := rfl
@[simp] theorem State.putFree_out (s : State) (f : Fld) (i : Nat) : (s.putFree f i).out = s.out := rfl
@[simp] theorem State.putFree_sys (s : State) (f : Fld) (i : Nat) : (s.putFree f i).sys = s.sys := rfl
@[simp] theorem State.putFree_time (s : State) (f : Fld) (i : Nat) : (s.putFree f i).time = s.time := rfl
@[simp] theorem State.putFree_log (s : State) (f : Fld) (i : Nat) : (s.putFree f i).log = s.log := rfl
@[simp] theorem State.putFree_flash (s : State) (f : Fld) (i : Nat) : (s.putFree f i).flash = s.flash := rfl
@[simp] theorem State.putFree_flt (s : State) (f : Fld) (i : Nat) : (s.putFree f i).flt = s.flt := rfl
@[simp] theorem State.putFree_pace (s : State) (f : Fld) (i : Nat) : (s.putFree f i).pace = s.pace := rfl
@[simp] theorem State.putFree_lanes (s : State) (f : Fld) (i : Nat) : (s.putFree f i).lanes = s.lanes := rfl
@[simp] theorem State.putFree_ports (s : State) (f : Fld) (i : Nat) : (s.putFree f i).ports = s.ports := rfl
@[simp] theorem State.putFree_host (s : State) (f : Fld) (i : Nat) : (s.putFree f i).host = s.host := rfl
@[simp] theorem State.putFree_tab (s : State) (f : Fld) (i : Nat) : (s.putFree f i).tab = s.tab := rfl
@[simp] theorem State.putFree_ver (s : State) (f : Fld) (i : Nat) : (s.putFree f i).ver = s.ver := rfl
@[simp] theorem State.putFree_frames (s : State) (f : Fld) (i : Nat) : (s.putFree f i).frames = s.frames := rfl
@[simp] theorem State.putFree_nextFrame (s : State) (f : Fld) (i : Nat) : (s.putFree f i).nextFrame = s.nextFrame := rfl
@[simp] theorem State.putFree_lastPen (s : State) (f : Fld) (i : Nat) : (s.putFree f i).lastPen = s.lastPen := rfl
@[simp] theorem State.putFree_fold (s : State) (f : Fld) (i : Nat) : (s.putFree f i).fold = s.fold := rfl
@[simp] theorem State.putFree_sched (s : State) (f : Fld) (i : Nat) : (s.putFree f i).sched = s.sched := rfl
@[simp] theorem State.putFree_perf (s : State) (f : Fld) (i : Nat) : (s.putFree f i).perf = s.perf := rfl
@[simp] theorem State.putFree_telem (s : State) (f : Fld) (i : Nat) : (s.putFree f i).telem = s.telem := rfl
@[simp] theorem State.putFree_flock (s : State) (f : Fld) (i : Nat) : (s.putFree f i).flock = s.flock := rfl
@[simp] theorem State.putFree_crook (s : State) (f : Fld) (i : Nat) : (s.putFree f i).crook = s.crook := rfl
@[simp] theorem State.putFree_mgmt (s : State) (f : Fld) (i : Nat) : (s.putFree f i).mgmt = s.mgmt := rfl
@[simp] theorem State.putFree_muster (s : State) (f : Fld) (i : Nat) : (s.putFree f i).muster = s.muster := rfl

/-! ### State.emit -/

@[simp] theorem State.emit_pending (s : State) (o : Out) : (s.emit o).pending = s.pending := rfl
@[simp] theorem State.emit_live (s : State) (o : Out) : (s.emit o).live = s.live := rfl
@[simp] theorem State.emit_staged (s : State) (o : Out) : (s.emit o).staged = s.staged := rfl
@[simp] theorem State.emit_hostMem (s : State) (o : Out) : (s.emit o).hostMem = s.hostMem := rfl
@[simp] theorem State.emit_free (s : State) (o : Out) : (s.emit o).free = s.free := rfl
@[simp] theorem State.emit_sys (s : State) (o : Out) : (s.emit o).sys = s.sys := rfl
@[simp] theorem State.emit_time (s : State) (o : Out) : (s.emit o).time = s.time := rfl
@[simp] theorem State.emit_log (s : State) (o : Out) : (s.emit o).log = s.log := rfl
@[simp] theorem State.emit_flash (s : State) (o : Out) : (s.emit o).flash = s.flash := rfl
@[simp] theorem State.emit_flt (s : State) (o : Out) : (s.emit o).flt = s.flt := rfl
@[simp] theorem State.emit_pace (s : State) (o : Out) : (s.emit o).pace = s.pace := rfl
@[simp] theorem State.emit_lanes (s : State) (o : Out) : (s.emit o).lanes = s.lanes := rfl
@[simp] theorem State.emit_ports (s : State) (o : Out) : (s.emit o).ports = s.ports := rfl
@[simp] theorem State.emit_host (s : State) (o : Out) : (s.emit o).host = s.host := rfl
@[simp] theorem State.emit_tab (s : State) (o : Out) : (s.emit o).tab = s.tab := rfl
@[simp] theorem State.emit_ver (s : State) (o : Out) : (s.emit o).ver = s.ver := rfl
@[simp] theorem State.emit_frames (s : State) (o : Out) : (s.emit o).frames = s.frames := rfl
@[simp] theorem State.emit_nextFrame (s : State) (o : Out) : (s.emit o).nextFrame = s.nextFrame := rfl
@[simp] theorem State.emit_lastPen (s : State) (o : Out) : (s.emit o).lastPen = s.lastPen := rfl
@[simp] theorem State.emit_fold (s : State) (o : Out) : (s.emit o).fold = s.fold := rfl
@[simp] theorem State.emit_sched (s : State) (o : Out) : (s.emit o).sched = s.sched := rfl
@[simp] theorem State.emit_perf (s : State) (o : Out) : (s.emit o).perf = s.perf := rfl
@[simp] theorem State.emit_telem (s : State) (o : Out) : (s.emit o).telem = s.telem := rfl
@[simp] theorem State.emit_flock (s : State) (o : Out) : (s.emit o).flock = s.flock := rfl
@[simp] theorem State.emit_crook (s : State) (o : Out) : (s.emit o).crook = s.crook := rfl
@[simp] theorem State.emit_mgmt (s : State) (o : Out) : (s.emit o).mgmt = s.mgmt := rfl
@[simp] theorem State.emit_muster (s : State) (o : Out) : (s.emit o).muster = s.muster := rfl

/-! ### State.setHostByte -/

@[simp] theorem State.setHostByte_pending (s : State) (a : Nat) (b : Byte) : (s.setHostByte a b).pending = s.pending := rfl
@[simp] theorem State.setHostByte_live (s : State) (a : Nat) (b : Byte) : (s.setHostByte a b).live = s.live := rfl
@[simp] theorem State.setHostByte_staged (s : State) (a : Nat) (b : Byte) : (s.setHostByte a b).staged = s.staged := rfl
@[simp] theorem State.setHostByte_out (s : State) (a : Nat) (b : Byte) : (s.setHostByte a b).out = s.out := rfl
@[simp] theorem State.setHostByte_free (s : State) (a : Nat) (b : Byte) : (s.setHostByte a b).free = s.free := rfl
@[simp] theorem State.setHostByte_sys (s : State) (a : Nat) (b : Byte) : (s.setHostByte a b).sys = s.sys := rfl
@[simp] theorem State.setHostByte_time (s : State) (a : Nat) (b : Byte) : (s.setHostByte a b).time = s.time := rfl
@[simp] theorem State.setHostByte_log (s : State) (a : Nat) (b : Byte) : (s.setHostByte a b).log = s.log := rfl
@[simp] theorem State.setHostByte_flash (s : State) (a : Nat) (b : Byte) : (s.setHostByte a b).flash = s.flash := rfl
@[simp] theorem State.setHostByte_flt (s : State) (a : Nat) (b : Byte) : (s.setHostByte a b).flt = s.flt := rfl
@[simp] theorem State.setHostByte_pace (s : State) (a : Nat) (b : Byte) : (s.setHostByte a b).pace = s.pace := rfl
@[simp] theorem State.setHostByte_lanes (s : State) (a : Nat) (b : Byte) : (s.setHostByte a b).lanes = s.lanes := rfl
@[simp] theorem State.setHostByte_ports (s : State) (a : Nat) (b : Byte) : (s.setHostByte a b).ports = s.ports := rfl
@[simp] theorem State.setHostByte_host (s : State) (a : Nat) (b : Byte) : (s.setHostByte a b).host = s.host := rfl
@[simp] theorem State.setHostByte_tab (s : State) (a : Nat) (b : Byte) : (s.setHostByte a b).tab = s.tab := rfl
@[simp] theorem State.setHostByte_ver (s : State) (a : Nat) (b : Byte) : (s.setHostByte a b).ver = s.ver := rfl
@[simp] theorem State.setHostByte_frames (s : State) (a : Nat) (b : Byte) : (s.setHostByte a b).frames = s.frames := rfl
@[simp] theorem State.setHostByte_nextFrame (s : State) (a : Nat) (b : Byte) : (s.setHostByte a b).nextFrame = s.nextFrame := rfl
@[simp] theorem State.setHostByte_lastPen (s : State) (a : Nat) (b : Byte) : (s.setHostByte a b).lastPen = s.lastPen := rfl
@[simp] theorem State.setHostByte_fold (s : State) (a : Nat) (b : Byte) : (s.setHostByte a b).fold = s.fold := rfl
@[simp] theorem State.setHostByte_sched (s : State) (a : Nat) (b : Byte) : (s.setHostByte a b).sched = s.sched := rfl
@[simp] theorem State.setHostByte_perf (s : State) (a : Nat) (b : Byte) : (s.setHostByte a b).perf = s.perf := rfl
@[simp] theorem State.setHostByte_telem (s : State) (a : Nat) (b : Byte) : (s.setHostByte a b).telem = s.telem := rfl
@[simp] theorem State.setHostByte_flock (s : State) (a : Nat) (b : Byte) : (s.setHostByte a b).flock = s.flock := rfl
@[simp] theorem State.setHostByte_crook (s : State) (a : Nat) (b : Byte) : (s.setHostByte a b).crook = s.crook := rfl
@[simp] theorem State.setHostByte_mgmt (s : State) (a : Nat) (b : Byte) : (s.setHostByte a b).mgmt = s.mgmt := rfl
@[simp] theorem State.setHostByte_muster (s : State) (a : Nat) (b : Byte) : (s.setHostByte a b).muster = s.muster := rfl

/-! ### State.puts, State.setHostBytes -/

@[simp] theorem State.puts_pending (i : Nat) (l : List (Fld × Nat)) : ∀ s : State, (s.puts i l).pending = s.pending := by
  induction l with
  | nil => intro s; rfl
  | cons p l ih => intro s; exact (ih _).trans rfl
@[simp] theorem State.setHostBytes_pending (bs : List Byte) :
    ∀ (s : State) (a : Nat), (s.setHostBytes a bs).pending = s.pending := by
  induction bs with
  | nil => intro s a; rfl
  | cons b bs ih => intro s a; exact (ih _ _).trans rfl
@[simp] theorem State.setHostBytes_live (bs : List Byte) :
    ∀ (s : State) (a : Nat), (s.setHostBytes a bs).live = s.live := by
  induction bs with
  | nil => intro s a; rfl
  | cons b bs ih => intro s a; exact (ih _ _).trans rfl
@[simp] theorem State.puts_staged (i : Nat) (l : List (Fld × Nat)) : ∀ s : State, (s.puts i l).staged = s.staged := by
  induction l with
  | nil => intro s; rfl
  | cons p l ih => intro s; exact (ih _).trans rfl
@[simp] theorem State.setHostBytes_staged (bs : List Byte) :
    ∀ (s : State) (a : Nat), (s.setHostBytes a bs).staged = s.staged := by
  induction bs with
  | nil => intro s a; rfl
  | cons b bs ih => intro s a; exact (ih _ _).trans rfl
@[simp] theorem State.puts_hostMem (i : Nat) (l : List (Fld × Nat)) : ∀ s : State, (s.puts i l).hostMem = s.hostMem := by
  induction l with
  | nil => intro s; rfl
  | cons p l ih => intro s; exact (ih _).trans rfl
@[simp] theorem State.puts_out (i : Nat) (l : List (Fld × Nat)) : ∀ s : State, (s.puts i l).out = s.out := by
  induction l with
  | nil => intro s; rfl
  | cons p l ih => intro s; exact (ih _).trans rfl
@[simp] theorem State.setHostBytes_out (bs : List Byte) :
    ∀ (s : State) (a : Nat), (s.setHostBytes a bs).out = s.out := by
  induction bs with
  | nil => intro s a; rfl
  | cons b bs ih => intro s a; exact (ih _ _).trans rfl
@[simp] theorem State.puts_free (i : Nat) (l : List (Fld × Nat)) : ∀ s : State, (s.puts i l).free = s.free := by
  induction l with
  | nil => intro s; rfl
  | cons p l ih => intro s; exact (ih _).trans rfl
@[simp] theorem State.setHostBytes_free (bs : List Byte) :
    ∀ (s : State) (a : Nat), (s.setHostBytes a bs).free = s.free := by
  induction bs with
  | nil => intro s a; rfl
  | cons b bs ih => intro s a; exact (ih _ _).trans rfl
@[simp] theorem State.puts_sys (i : Nat) (l : List (Fld × Nat)) : ∀ s : State, (s.puts i l).sys = s.sys := by
  induction l with
  | nil => intro s; rfl
  | cons p l ih => intro s; exact (ih _).trans rfl
@[simp] theorem State.setHostBytes_sys (bs : List Byte) :
    ∀ (s : State) (a : Nat), (s.setHostBytes a bs).sys = s.sys := by
  induction bs with
  | nil => intro s a; rfl
  | cons b bs ih => intro s a; exact (ih _ _).trans rfl
@[simp] theorem State.puts_time (i : Nat) (l : List (Fld × Nat)) : ∀ s : State, (s.puts i l).time = s.time := by
  induction l with
  | nil => intro s; rfl
  | cons p l ih => intro s; exact (ih _).trans rfl
@[simp] theorem State.setHostBytes_time (bs : List Byte) :
    ∀ (s : State) (a : Nat), (s.setHostBytes a bs).time = s.time := by
  induction bs with
  | nil => intro s a; rfl
  | cons b bs ih => intro s a; exact (ih _ _).trans rfl
@[simp] theorem State.puts_log (i : Nat) (l : List (Fld × Nat)) : ∀ s : State, (s.puts i l).log = s.log := by
  induction l with
  | nil => intro s; rfl
  | cons p l ih => intro s; exact (ih _).trans rfl
@[simp] theorem State.setHostBytes_log (bs : List Byte) :
    ∀ (s : State) (a : Nat), (s.setHostBytes a bs).log = s.log := by
  induction bs with
  | nil => intro s a; rfl
  | cons b bs ih => intro s a; exact (ih _ _).trans rfl
@[simp] theorem State.puts_flash (i : Nat) (l : List (Fld × Nat)) : ∀ s : State, (s.puts i l).flash = s.flash := by
  induction l with
  | nil => intro s; rfl
  | cons p l ih => intro s; exact (ih _).trans rfl
@[simp] theorem State.setHostBytes_flash (bs : List Byte) :
    ∀ (s : State) (a : Nat), (s.setHostBytes a bs).flash = s.flash := by
  induction bs with
  | nil => intro s a; rfl
  | cons b bs ih => intro s a; exact (ih _ _).trans rfl
@[simp] theorem State.puts_flt (i : Nat) (l : List (Fld × Nat)) : ∀ s : State, (s.puts i l).flt = s.flt := by
  induction l with
  | nil => intro s; rfl
  | cons p l ih => intro s; exact (ih _).trans rfl
@[simp] theorem State.setHostBytes_flt (bs : List Byte) :
    ∀ (s : State) (a : Nat), (s.setHostBytes a bs).flt = s.flt := by
  induction bs with
  | nil => intro s a; rfl
  | cons b bs ih => intro s a; exact (ih _ _).trans rfl
@[simp] theorem State.puts_pace (i : Nat) (l : List (Fld × Nat)) : ∀ s : State, (s.puts i l).pace = s.pace := by
  induction l with
  | nil => intro s; rfl
  | cons p l ih => intro s; exact (ih _).trans rfl
@[simp] theorem State.setHostBytes_pace (bs : List Byte) :
    ∀ (s : State) (a : Nat), (s.setHostBytes a bs).pace = s.pace := by
  induction bs with
  | nil => intro s a; rfl
  | cons b bs ih => intro s a; exact (ih _ _).trans rfl
@[simp] theorem State.puts_lanes (i : Nat) (l : List (Fld × Nat)) : ∀ s : State, (s.puts i l).lanes = s.lanes := by
  induction l with
  | nil => intro s; rfl
  | cons p l ih => intro s; exact (ih _).trans rfl
@[simp] theorem State.setHostBytes_lanes (bs : List Byte) :
    ∀ (s : State) (a : Nat), (s.setHostBytes a bs).lanes = s.lanes := by
  induction bs with
  | nil => intro s a; rfl
  | cons b bs ih => intro s a; exact (ih _ _).trans rfl
@[simp] theorem State.puts_ports (i : Nat) (l : List (Fld × Nat)) : ∀ s : State, (s.puts i l).ports = s.ports := by
  induction l with
  | nil => intro s; rfl
  | cons p l ih => intro s; exact (ih _).trans rfl
@[simp] theorem State.setHostBytes_ports (bs : List Byte) :
    ∀ (s : State) (a : Nat), (s.setHostBytes a bs).ports = s.ports := by
  induction bs with
  | nil => intro s a; rfl
  | cons b bs ih => intro s a; exact (ih _ _).trans rfl
@[simp] theorem State.puts_host (i : Nat) (l : List (Fld × Nat)) : ∀ s : State, (s.puts i l).host = s.host := by
  induction l with
  | nil => intro s; rfl
  | cons p l ih => intro s; exact (ih _).trans rfl
@[simp] theorem State.setHostBytes_host (bs : List Byte) :
    ∀ (s : State) (a : Nat), (s.setHostBytes a bs).host = s.host := by
  induction bs with
  | nil => intro s a; rfl
  | cons b bs ih => intro s a; exact (ih _ _).trans rfl
@[simp] theorem State.puts_tab (i : Nat) (l : List (Fld × Nat)) : ∀ s : State, (s.puts i l).tab = s.tab := by
  induction l with
  | nil => intro s; rfl
  | cons p l ih => intro s; exact (ih _).trans rfl
@[simp] theorem State.setHostBytes_tab (bs : List Byte) :
    ∀ (s : State) (a : Nat), (s.setHostBytes a bs).tab = s.tab := by
  induction bs with
  | nil => intro s a; rfl
  | cons b bs ih => intro s a; exact (ih _ _).trans rfl
@[simp] theorem State.puts_ver (i : Nat) (l : List (Fld × Nat)) : ∀ s : State, (s.puts i l).ver = s.ver := by
  induction l with
  | nil => intro s; rfl
  | cons p l ih => intro s; exact (ih _).trans rfl
@[simp] theorem State.setHostBytes_ver (bs : List Byte) :
    ∀ (s : State) (a : Nat), (s.setHostBytes a bs).ver = s.ver := by
  induction bs with
  | nil => intro s a; rfl
  | cons b bs ih => intro s a; exact (ih _ _).trans rfl
@[simp] theorem State.puts_frames (i : Nat) (l : List (Fld × Nat)) : ∀ s : State, (s.puts i l).frames = s.frames := by
  induction l with
  | nil => intro s; rfl
  | cons p l ih => intro s; exact (ih _).trans rfl
@[simp] theorem State.setHostBytes_frames (bs : List Byte) :
    ∀ (s : State) (a : Nat), (s.setHostBytes a bs).frames = s.frames := by
  induction bs with
  | nil => intro s a; rfl
  | cons b bs ih => intro s a; exact (ih _ _).trans rfl
@[simp] theorem State.puts_nextFrame (i : Nat) (l : List (Fld × Nat)) : ∀ s : State, (s.puts i l).nextFrame = s.nextFrame := by
  induction l with
  | nil => intro s; rfl
  | cons p l ih => intro s; exact (ih _).trans rfl
@[simp] theorem State.setHostBytes_nextFrame (bs : List Byte) :
    ∀ (s : State) (a : Nat), (s.setHostBytes a bs).nextFrame = s.nextFrame := by
  induction bs with
  | nil => intro s a; rfl
  | cons b bs ih => intro s a; exact (ih _ _).trans rfl
@[simp] theorem State.puts_lastPen (i : Nat) (l : List (Fld × Nat)) : ∀ s : State, (s.puts i l).lastPen = s.lastPen := by
  induction l with
  | nil => intro s; rfl
  | cons p l ih => intro s; exact (ih _).trans rfl
@[simp] theorem State.setHostBytes_lastPen (bs : List Byte) :
    ∀ (s : State) (a : Nat), (s.setHostBytes a bs).lastPen = s.lastPen := by
  induction bs with
  | nil => intro s a; rfl
  | cons b bs ih => intro s a; exact (ih _ _).trans rfl
@[simp] theorem State.puts_fold (i : Nat) (l : List (Fld × Nat)) : ∀ s : State, (s.puts i l).fold = s.fold := by
  induction l with
  | nil => intro s; rfl
  | cons p l ih => intro s; exact (ih _).trans rfl
@[simp] theorem State.setHostBytes_fold (bs : List Byte) :
    ∀ (s : State) (a : Nat), (s.setHostBytes a bs).fold = s.fold := by
  induction bs with
  | nil => intro s a; rfl
  | cons b bs ih => intro s a; exact (ih _ _).trans rfl
@[simp] theorem State.puts_sched (i : Nat) (l : List (Fld × Nat)) : ∀ s : State, (s.puts i l).sched = s.sched := by
  induction l with
  | nil => intro s; rfl
  | cons p l ih => intro s; exact (ih _).trans rfl
@[simp] theorem State.setHostBytes_sched (bs : List Byte) :
    ∀ (s : State) (a : Nat), (s.setHostBytes a bs).sched = s.sched := by
  induction bs with
  | nil => intro s a; rfl
  | cons b bs ih => intro s a; exact (ih _ _).trans rfl
@[simp] theorem State.puts_perf (i : Nat) (l : List (Fld × Nat)) : ∀ s : State, (s.puts i l).perf = s.perf := by
  induction l with
  | nil => intro s; rfl
  | cons p l ih => intro s; exact (ih _).trans rfl
@[simp] theorem State.setHostBytes_perf (bs : List Byte) :
    ∀ (s : State) (a : Nat), (s.setHostBytes a bs).perf = s.perf := by
  induction bs with
  | nil => intro s a; rfl
  | cons b bs ih => intro s a; exact (ih _ _).trans rfl
@[simp] theorem State.puts_telem (i : Nat) (l : List (Fld × Nat)) : ∀ s : State, (s.puts i l).telem = s.telem := by
  induction l with
  | nil => intro s; rfl
  | cons p l ih => intro s; exact (ih _).trans rfl
@[simp] theorem State.setHostBytes_telem (bs : List Byte) :
    ∀ (s : State) (a : Nat), (s.setHostBytes a bs).telem = s.telem := by
  induction bs with
  | nil => intro s a; rfl
  | cons b bs ih => intro s a; exact (ih _ _).trans rfl
@[simp] theorem State.puts_flock (i : Nat) (l : List (Fld × Nat)) : ∀ s : State, (s.puts i l).flock = s.flock := by
  induction l with
  | nil => intro s; rfl
  | cons p l ih => intro s; exact (ih _).trans rfl
@[simp] theorem State.setHostBytes_flock (bs : List Byte) :
    ∀ (s : State) (a : Nat), (s.setHostBytes a bs).flock = s.flock := by
  induction bs with
  | nil => intro s a; rfl
  | cons b bs ih => intro s a; exact (ih _ _).trans rfl
@[simp] theorem State.puts_crook (i : Nat) (l : List (Fld × Nat)) : ∀ s : State, (s.puts i l).crook = s.crook := by
  induction l with
  | nil => intro s; rfl
  | cons p l ih => intro s; exact (ih _).trans rfl
@[simp] theorem State.setHostBytes_crook (bs : List Byte) :
    ∀ (s : State) (a : Nat), (s.setHostBytes a bs).crook = s.crook := by
  induction bs with
  | nil => intro s a; rfl
  | cons b bs ih => intro s a; exact (ih _ _).trans rfl
@[simp] theorem State.puts_mgmt (i : Nat) (l : List (Fld × Nat)) : ∀ s : State, (s.puts i l).mgmt = s.mgmt := by
  induction l with
  | nil => intro s; rfl
  | cons p l ih => intro s; exact (ih _).trans rfl
@[simp] theorem State.setHostBytes_mgmt (bs : List Byte) :
    ∀ (s : State) (a : Nat), (s.setHostBytes a bs).mgmt = s.mgmt := by
  induction bs with
  | nil => intro s a; rfl
  | cons b bs ih => intro s a; exact (ih _ _).trans rfl
@[simp] theorem State.puts_muster (i : Nat) (l : List (Fld × Nat)) : ∀ s : State, (s.puts i l).muster = s.muster := by
  induction l with
  | nil => intro s; rfl
  | cons p l ih => intro s; exact (ih _).trans rfl
@[simp] theorem State.setHostBytes_muster (bs : List Byte) :
    ∀ (s : State) (a : Nat), (s.setHostBytes a bs).muster = s.muster := by
  induction bs with
  | nil => intro s a; rfl
  | cons b bs ih => intro s a; exact (ih _ _).trans rfl

end Sys2Proof.Machine
end

