-- ==== Sys2Proof/Laws/Stores.lean ====
section
/-! SUPPORT. Laws/Stores.lean: reading and writing sparse maps, objects, fields and host memory: what a write gives, what
it leaves, and that it keeps the form of the stores. -/

namespace Sys2Proof.Machine

open Sys2Proof

/-! ## Sparse maps -/

section Maps

variable {β : Type}

theorem lookD_insKey (d : β) (m : List (Nat × β)) (q p : Nat) (v : β) :
    lookD d (insKey q v m) p = if q = p then v else lookD d m p := by
  induction m with
  | nil => by_cases h : q = p <;> simp [insKey, lookD, h]
  | cons e m ih =>
    obtain ⟨k, w⟩ := e
    simp only [insKey]
    split
    · by_cases h : q = p <;> simp [lookD, h]
    · split
      · rename_i hk
        have hk : q = k := by simpa using hk
        subst hk
        by_cases h : q = p <;> simp [lookD, h]
      · rename_i _ hk
        have hk : ¬ q = k := by simpa using hk
        by_cases h : k = p
        · have : ¬ q = p := by omega
          simp [lookD, h, this]
        · simp [lookD, h, ih]

theorem lookD_dropKey (d : β) (m : List (Nat × β)) (q p : Nat) :
    lookD d (dropKey m q) p = if q = p then d else lookD d m p := by
  induction m with
  | nil => simp [dropKey, lookD]
  | cons e m ih =>
    obtain ⟨k, w⟩ := e
    simp only [dropKey, List.filter_cons] at *
    by_cases hk : k = q
    · subst hk
      by_cases h : k = p
      · subst h
        simpa using ih
      · simpa [lookD, h] using ih
    · by_cases h : k = p
      · subst h
        have : ¬ q = k := fun x => hk x.symm
        simp [hk, lookD, this]
      · simp [hk, lookD, h, ih]

/-- A map reads the value put at the key, and every other key as before. -/
theorem lookD_putD [DecidableEq β] (d : β) (m : List (Nat × β)) (q p : Nat) (v : β) :
    lookD d (putD d m q v) p = if q = p then v else lookD d m p := by
  unfold putD
  split
  · rename_i h
    subst h
    exact lookD_dropKey _ m q p
  · exact lookD_insKey d m q p v

/-- A put leaves every other key, whatever default it is read with. -/
theorem lookD_putD_ne [DecidableEq β] (d d' : β) (m : List (Nat × β)) {q p : Nat} (v : β) (h : q ≠ p) :
    lookD d' (putD d m q v) p = lookD d' m p := by
  unfold putD
  split
  · rw [lookD_dropKey, if_neg h]
  · rw [lookD_insKey, if_neg h]

theorem mem_insKey {q : Nat} {v : β} {m : List (Nat × β)} {e : Nat × β} (h : e ∈ insKey q v m) :
    e = (q, v) ∨ e ∈ m := by
  induction m with
  | nil => exact .inl (by simpa [insKey] using h)
  | cons x m ih =>
    obtain ⟨k, w⟩ := x
    simp only [insKey] at h
    split at h
    · simpa using h
    · split at h
      · simp only [List.mem_cons] at h ⊢
        exact h.imp_right .inr
      · simp only [List.mem_cons] at h ⊢
        rcases h with h | h
        · exact .inr (.inl h)
        · exact (ih h).imp_right .inr

theorem rising_insKey {m : List (Nat × β)} (h : Rising m) (q : Nat) (v : β) : Rising (insKey q v m) := by
  induction m with
  | nil => simp [insKey, Rising]
  | cons e m ih =>
    obtain ⟨k, w⟩ := e
    have h' := List.pairwise_cons.1 h
    simp only [insKey]
    split
    · refine List.pairwise_cons.2 ⟨fun e he => ?_, h⟩
      rename_i hq
      rcases List.mem_cons.1 he with rfl | he
      · exact hq
      · exact Nat.lt_trans hq (h'.1 e he)
    · split
      · rename_i hq
        have hq : q = k := by simpa using hq
        subst hq
        exact List.pairwise_cons.2 ⟨fun e he => h'.1 e he, h'.2⟩
      · rename_i hlt hne
        have hne : ¬ q = k := by simpa using hne
        refine List.pairwise_cons.2 ⟨fun e he => ?_, ih h'.2⟩
        rcases mem_insKey he with rfl | he
        · show k < q
          omega
        · exact h'.1 e he

theorem rising_dropKey {m : List (Nat × β)} (h : Rising m) (q : Nat) : Rising (dropKey m q) := h.filter _

theorem rising_putD [DecidableEq β] {m : List (Nat × β)} (h : Rising m) (d : β) (q : Nat) (v : β) : Rising (putD d m q v) := by
  unfold putD
  split
  · exact rising_dropKey h q
  · exact rising_insKey h q v

/-- A put keeps the canonical form. -/
theorem sparse_putD [DecidableEq β] {d : β} {m : List (Nat × β)} (h : Sparse d m) (q : Nat) (v : β) : Sparse d (putD d m q v) := by
  refine ⟨rising_putD h.1 d q v, fun e he => ?_⟩
  unfold putD at he
  split at he
  · exact h.2 e (List.mem_filter.1 he).1
  · rename_i hv
    rcases mem_insKey he with rfl | he
    · exact hv
    · exact h.2 e he

end Maps

/-! ## Object identifiers (R5) -/

/-- No object of a class has the identifier of one of another place. -/
theorem oid_inj {c c' : Cls} {i i' : Nat} (h : i < 2 ^ 32) (h' : i' < 2 ^ 32) (e : oid c i = oid c' i') :
    c.row.unit = c'.row.unit ∧ c.row.code = c'.row.code ∧ i = i' := by
  have hc : c.row.code < 256 := by cases c <;> decide
  have hc' : c'.row.code < 256 := by cases c' <;> decide
  unfold oid at e
  omega

/-- Unit and class codes name a class. -/
theorem clsOf_row (c : Cls) : clsOf c.row.unit c.row.code = some c := by cases c <;> rfl

theorem cls_ext {c c' : Cls} (hu : c.row.unit = c'.row.unit) (hc : c.row.code = c'.row.code) : c = c' := by
  have h := clsOf_row c
  rw [hu, hc, clsOf_row c'] at h
  exact (Option.some.inj h).symm

/-- An identifier names one object. -/
theorem oid_eq {c c' : Cls} {i i' : Nat} (h : i < 2 ^ 32) (h' : i' < 2 ^ 32) (e : oid c i = oid c' i') : c = c' ∧ i = i' :=
  let x := oid_inj h h' e
  ⟨cls_ext x.1 x.2.1, x.2.2⟩

/-! ## Objects -/

theorem State.obj_setObj (s : State) (c : Cls) (i : Nat) (v : ObjVal) : (s.setObj c i v).obj c i = v := by
  simp [State.obj, State.setObj, lookD_putD]

theorem State.obj_setObj_ne (s : State) {c c' : Cls} {i i' : Nat} (v : ObjVal) (h : oid c i ≠ oid c' i') :
    (s.setObj c i v).obj c' i' = s.obj c' i' := by
  simp [State.obj, State.setObj, lookD_putD_ne _ _ _ _ h]

theorem State.stagedObj_setStagedObj (s : State) (c : Cls) (i : Nat) (v : ObjVal) :
    (s.setStagedObj c i v).stagedObj c i = v := by
  simp [State.stagedObj, State.setStagedObj, lookD_putD]

theorem State.stagedObj_setStagedObj_ne (s : State) {c c' : Cls} {i i' : Nat} (v : ObjVal) (h : oid c i ≠ oid c' i') :
    (s.setStagedObj c i v).stagedObj c' i' = s.stagedObj c' i' := by
  simp [State.stagedObj, State.setStagedObj, lookD_putD_ne _ _ _ _ h]

@[simp] theorem State.stagedObj_setObj (s : State) (c c' : Cls) (i i' : Nat) (v : ObjVal) :
    (s.setObj c i v).stagedObj c' i' = s.stagedObj c' i' := rfl

@[simp] theorem State.obj_setStagedObj (s : State) (c c' : Cls) (i i' : Nat) (v : ObjVal) :
    (s.setStagedObj c i v).obj c' i' = s.obj c' i' := rfl

/-! ## Fields -/

/-- The bits of a field's mask. -/
theorem fldMask_bit (f : Fld) (k : Nat) (hk : k < 512) (hf : f.hi < 512) :
    (fldMask f).getLsbD k = decide (f.lo ≤ k ∧ k ≤ f.hi) := by
  simp only [fldMask, BitVec.getLsbD_shiftLeft, BitVec.getLsbD_ushiftRight, BitVec.getLsbD_allOnes, hk, Fld.width]
  by_cases h : f.lo ≤ k
  · by_cases h2 : k ≤ f.hi
    · have : 512 - (f.hi + 1 - f.lo) + (k - f.lo) < 512 := by omega
      simp [h, h2, this, Nat.not_lt.2 h]
    · have : ¬ 512 - (f.hi + 1 - f.lo) + (k - f.lo) < 512 := by omega
      simp [h2, this]
  · have : k < f.lo := by omega
    simp [h, this]

/-- A field set reads as its value, modulo its width. -/
theorem fldGet_fldSet (v : ObjVal) (f : Fld) (x : Nat) (hf : f.hi < 512) (hlo : f.lo ≤ f.hi) :
    fldGet (fldSet v f x) f = x % 2 ^ f.width := by
  have hw : f.width = f.hi + 1 - f.lo := rfl
  have key : (fldSet v f x).extractLsb' f.lo f.width = BitVec.ofNat f.width x := by
    apply BitVec.eq_of_getLsbD_eq
    intro k hk
    have h1 : f.lo + k < 512 := by omega
    have h2 : f.lo ≤ f.lo + k ∧ f.lo + k ≤ f.hi := by omega
    simp only [fldSet, BitVec.getLsbD_extractLsb', hk, decide_true, Bool.true_and, BitVec.getLsbD_or, BitVec.getLsbD_and,
      BitVec.getLsbD_not, fldMask_bit f _ h1 hf, h2, h1, BitVec.getLsbD_shiftLeft, BitVec.getLsbD_ofNat]
    have h3 : k < 512 := by omega
    simp [h3, hk, Nat.testBit_mod_two_pow]
  rw [fldGet, key, BitVec.toNat_ofNat]

/-- A field set leaves a field of other bits. -/
theorem fldGet_fldSet_ne (v : ObjVal) (f g : Fld) (x : Nat) (hf : f.hi < 512) (hlo : f.lo ≤ f.hi)
    (hd : g.hi < f.lo ∨ f.hi < g.lo) : fldGet (fldSet v f x) g = fldGet v g := by
  have key : (fldSet v f x).extractLsb' g.lo g.width = v.extractLsb' g.lo g.width := by
    apply BitVec.eq_of_getLsbD_eq
    intro k hk
    have hwg : g.width = g.hi + 1 - g.lo := rfl
    have hwf : f.width = f.hi + 1 - f.lo := rfl
    by_cases h1 : g.lo + k < 512
    · have h2 : ¬ (f.lo ≤ g.lo + k ∧ g.lo + k ≤ f.hi) := by omega
      simp only [fldSet, BitVec.getLsbD_extractLsb', hk, decide_true, Bool.true_and, BitVec.getLsbD_or,
        BitVec.getLsbD_and, BitVec.getLsbD_not, fldMask_bit f _ h1 hf, h2, h1, BitVec.getLsbD_shiftLeft,
        BitVec.getLsbD_ofNat, decide_false, Bool.not_false, Bool.and_true]
      by_cases h3 : g.lo + k < f.lo
      · simp [h3]
      · have h4 : ¬ g.lo + k - f.lo < f.width := by omega
        simp [h4, Nat.testBit_mod_two_pow]
    · simp [BitVec.getLsbD_extractLsb', BitVec.getLsbD_of_ge _ _ (Nat.le_of_not_lt h1)]
  simp [fldGet, key]

/-- A live field put reads as its value, modulo its width. -/
theorem State.get_put (s : State) (f : Fld) (i x : Nat) (hf : f.hi < 512) (hlo : f.lo ≤ f.hi) :
    (s.put f i x).get f i = x % 2 ^ f.width := by
  simp [State.get, State.put, State.obj_setObj, fldGet_fldSet _ _ _ hf hlo]

/-- A live field put leaves a field of other bits of its object. -/
theorem State.get_put_field (s : State) (f g : Fld) (i x : Nat) (hc : g.cls = f.cls) (hf : f.hi < 512) (hlo : f.lo ≤ f.hi)
    (hd : g.hi < f.lo ∨ f.hi < g.lo) : (s.put f i x).get g i = s.get g i := by
  simp [State.get, State.put, hc, State.obj_setObj, fldGet_fldSet_ne _ _ _ _ hf hlo hd]

/-- A live field put leaves every other object. -/
theorem State.get_put_object (s : State) (f g : Fld) (i j x : Nat) (h : oid f.cls i ≠ oid g.cls j) :
    (s.put f i x).get g j = s.get g j := by
  simp [State.get, State.put, State.obj_setObj_ne _ _ h]

/-! ## Host memory (the MEMORY of the model) -/

/-- A byte written reads back, and every other address reads as before. -/
theorem State.hostByte_setHostByte (s : State) (a b : Nat) (x : Byte) :
    (s.setHostByte a x).hostByte b = if a % 2 ^ 64 = b % 2 ^ 64 then x else s.hostByte b := by
  simp [State.hostByte, State.setHostByte, lookD_putD]

/-- Bytes written leave every address that is not one of theirs. -/
theorem State.hostByte_setHostBytes_ne (bs : List Byte) : ∀ (s : State) (a b : Nat),
    (∀ i < bs.length, (a + i) % 2 ^ 64 ≠ b % 2 ^ 64) → (s.setHostBytes a bs).hostByte b = s.hostByte b := by
  induction bs with
  | nil => intro s a b _; rfl
  | cons x bs ih =>
    intro s a b h
    have h0 : a % 2 ^ 64 ≠ b % 2 ^ 64 := by simpa using h 0 (by simp)
    have hr : ∀ i < bs.length, (a + 1 + i) % 2 ^ 64 ≠ b % 2 ^ 64 := fun i hi => by
      have := h (i + 1) (by simpa using hi)
      rwa [Nat.add_right_comm, Nat.add_assoc] at *
    rw [State.setHostBytes, ih _ _ _ hr, State.hostByte_setHostByte, if_neg h0]

/-! ## The form of the stores -/

theorem canonical_setObj {s : State} (h : Canonical s) (c : Cls) (i : Nat) (v : ObjVal) : Canonical (s.setObj c i v) :=
  ⟨rising_putD h.1 _ _ _, h.2.1, h.2.2⟩

theorem canonical_setStagedObj {s : State} (h : Canonical s) (c : Cls) (i : Nat) (v : ObjVal) :
    Canonical (s.setStagedObj c i v) :=
  ⟨h.1, rising_putD h.2.1 _ _ _, h.2.2⟩

theorem canonical_put {s : State} (h : Canonical s) (f : Fld) (i x : Nat) : Canonical (s.put f i x) :=
  canonical_setObj h _ _ _

theorem canonical_putSt {s : State} (h : Canonical s) (f : Fld) (i x : Nat) : Canonical (s.putSt f i x) :=
  canonical_setStagedObj h _ _ _

theorem canonical_puts (i : Nat) (l : List (Fld × Nat)) : ∀ {s : State}, Canonical s → Canonical (s.puts i l) := by
  induction l with
  | nil => exact id
  | cons p l ih => exact fun h => ih (canonical_put h p.1 i p.2)

theorem canonical_setHostByte {s : State} (h : Canonical s) (a : Nat) (b : Byte) : Canonical (s.setHostByte a b) :=
  ⟨h.1, h.2.1, sparse_putD h.2.2 _ _⟩

theorem canonical_setHostBytes (bs : List Byte) :
    ∀ {s : State} (a : Nat), Canonical s → Canonical (s.setHostBytes a bs) := by
  induction bs with
  | nil => exact fun _ h => h
  | cons b bs ih => exact fun a h => ih (a + 1) (canonical_setHostByte h a b)

theorem canonical_setHostWords {s : State} (h : Canonical s) (a : Nat) (ws : List Word) :
    Canonical (s.setHostWords a ws) :=
  canonical_setHostBytes _ _ h

end Sys2Proof.Machine
end

