-- ==== Sys2Proof/Laws/Parts.lean ====
section
/-! SUPPORT. Laws/Parts.lean: reading and writing what the device keeps of one element beside its objects (a lane, a port, a
framer, a queue, a context): what a write gives, and that it leaves every other element and every other field. -/

namespace Sys2Proof.Machine

open Sys2Proof

/-! ### State.setLane: a lane -/

@[simp] theorem State.lane_setLane (s : State) (i : Nat) (v : LaneSt) : (s.setLane i v).lane i = v := by
  simp [State.lane, State.setLane, lookD_putD]
theorem State.lane_setLane_ne (s : State) {i j : Nat} (v : LaneSt) (h : i ≠ j) : (s.setLane i v).lane j = s.lane j :=
  lookD_putD_ne _ _ _ v h
theorem canonical_setLane {s : State} (h : Canonical s) (i : Nat) (v : LaneSt) : Canonical (s.setLane i v) := h
@[simp] theorem State.setLane_pending (s : State) (i : Nat) (v : LaneSt) : (s.setLane i v).pending = s.pending := rfl
@[simp] theorem State.setLane_live (s : State) (i : Nat) (v : LaneSt) : (s.setLane i v).live = s.live := rfl
@[simp] theorem State.setLane_staged (s : State) (i : Nat) (v : LaneSt) : (s.setLane i v).staged = s.staged := rfl
@[simp] theorem State.setLane_hostMem (s : State) (i : Nat) (v : LaneSt) : (s.setLane i v).hostMem = s.hostMem := rfl
@[simp] theorem State.setLane_out (s : State) (i : Nat) (v : LaneSt) : (s.setLane i v).out = s.out := rfl
@[simp] theorem State.setLane_free (s : State) (i : Nat) (v : LaneSt) : (s.setLane i v).free = s.free := rfl
@[simp] theorem State.setLane_sys (s : State) (i : Nat) (v : LaneSt) : (s.setLane i v).sys = s.sys := rfl
@[simp] theorem State.setLane_time (s : State) (i : Nat) (v : LaneSt) : (s.setLane i v).time = s.time := rfl
@[simp] theorem State.setLane_log (s : State) (i : Nat) (v : LaneSt) : (s.setLane i v).log = s.log := rfl
@[simp] theorem State.setLane_flash (s : State) (i : Nat) (v : LaneSt) : (s.setLane i v).flash = s.flash := rfl
@[simp] theorem State.setLane_flt (s : State) (i : Nat) (v : LaneSt) : (s.setLane i v).flt = s.flt := rfl
@[simp] theorem State.setLane_pace (s : State) (i : Nat) (v : LaneSt) : (s.setLane i v).pace = s.pace := rfl
@[simp] theorem State.setLane_ports (s : State) (i : Nat) (v : LaneSt) : (s.setLane i v).ports = s.ports := rfl
@[simp] theorem State.setLane_host (s : State) (i : Nat) (v : LaneSt) : (s.setLane i v).host = s.host := rfl
@[simp] theorem State.setLane_tab (s : State) (i : Nat) (v : LaneSt) : (s.setLane i v).tab = s.tab := rfl
@[simp] theorem State.setLane_ver (s : State) (i : Nat) (v : LaneSt) : (s.setLane i v).ver = s.ver := rfl
@[simp] theorem State.setLane_frames (s : State) (i : Nat) (v : LaneSt) : (s.setLane i v).frames = s.frames := rfl
@[simp] theorem State.setLane_nextFrame (s : State) (i : Nat) (v : LaneSt) : (s.setLane i v).nextFrame = s.nextFrame := rfl
@[simp] theorem State.setLane_lastPen (s : State) (i : Nat) (v : LaneSt) : (s.setLane i v).lastPen = s.lastPen := rfl
@[simp] theorem State.setLane_fold (s : State) (i : Nat) (v : LaneSt) : (s.setLane i v).fold = s.fold := rfl
@[simp] theorem State.setLane_sched (s : State) (i : Nat) (v : LaneSt) : (s.setLane i v).sched = s.sched := rfl
@[simp] theorem State.setLane_perf (s : State) (i : Nat) (v : LaneSt) : (s.setLane i v).perf = s.perf := rfl
@[simp] theorem State.setLane_telem (s : State) (i : Nat) (v : LaneSt) : (s.setLane i v).telem = s.telem := rfl
@[simp] theorem State.setLane_flock (s : State) (i : Nat) (v : LaneSt) : (s.setLane i v).flock = s.flock := rfl
@[simp] theorem State.setLane_crook (s : State) (i : Nat) (v : LaneSt) : (s.setLane i v).crook = s.crook := rfl
@[simp] theorem State.setLane_mgmt (s : State) (i : Nat) (v : LaneSt) : (s.setLane i v).mgmt = s.mgmt := rfl
@[simp] theorem State.setLane_muster (s : State) (i : Nat) (v : LaneSt) : (s.setLane i v).muster = s.muster := rfl

/-! ### State.setPort: a front port -/

@[simp] theorem State.port_setPort (s : State) (i : Nat) (v : PortSt) : (s.setPort i v).port i = v := by
  simp [State.port, State.setPort, lookD_putD]
theorem State.port_setPort_ne (s : State) {i j : Nat} (v : PortSt) (h : i ≠ j) : (s.setPort i v).port j = s.port j :=
  lookD_putD_ne _ _ _ v h
theorem canonical_setPort {s : State} (h : Canonical s) (i : Nat) (v : PortSt) : Canonical (s.setPort i v) := h
@[simp] theorem State.setPort_pending (s : State) (i : Nat) (v : PortSt) : (s.setPort i v).pending = s.pending := rfl
@[simp] theorem State.setPort_live (s : State) (i : Nat) (v : PortSt) : (s.setPort i v).live = s.live := rfl
@[simp] theorem State.setPort_staged (s : State) (i : Nat) (v : PortSt) : (s.setPort i v).staged = s.staged := rfl
@[simp] theorem State.setPort_hostMem (s : State) (i : Nat) (v : PortSt) : (s.setPort i v).hostMem = s.hostMem := rfl
@[simp] theorem State.setPort_out (s : State) (i : Nat) (v : PortSt) : (s.setPort i v).out = s.out := rfl
@[simp] theorem State.setPort_free (s : State) (i : Nat) (v : PortSt) : (s.setPort i v).free = s.free := rfl
@[simp] theorem State.setPort_sys (s : State) (i : Nat) (v : PortSt) : (s.setPort i v).sys = s.sys := rfl
@[simp] theorem State.setPort_time (s : State) (i : Nat) (v : PortSt) : (s.setPort i v).time = s.time := rfl
@[simp] theorem State.setPort_log (s : State) (i : Nat) (v : PortSt) : (s.setPort i v).log = s.log := rfl
@[simp] theorem State.setPort_flash (s : State) (i : Nat) (v : PortSt) : (s.setPort i v).flash = s.flash := rfl
@[simp] theorem State.setPort_flt (s : State) (i : Nat) (v : PortSt) : (s.setPort i v).flt = s.flt := rfl
@[simp] theorem State.setPort_pace (s : State) (i : Nat) (v : PortSt) : (s.setPort i v).pace = s.pace := rfl
@[simp] theorem State.setPort_lanes (s : State) (i : Nat) (v : PortSt) : (s.setPort i v).lanes = s.lanes := rfl
@[simp] theorem State.setPort_host (s : State) (i : Nat) (v : PortSt) : (s.setPort i v).host = s.host := rfl
@[simp] theorem State.setPort_tab (s : State) (i : Nat) (v : PortSt) : (s.setPort i v).tab = s.tab := rfl
@[simp] theorem State.setPort_ver (s : State) (i : Nat) (v : PortSt) : (s.setPort i v).ver = s.ver := rfl
@[simp] theorem State.setPort_frames (s : State) (i : Nat) (v : PortSt) : (s.setPort i v).frames = s.frames := rfl
@[simp] theorem State.setPort_nextFrame (s : State) (i : Nat) (v : PortSt) : (s.setPort i v).nextFrame = s.nextFrame := rfl
@[simp] theorem State.setPort_lastPen (s : State) (i : Nat) (v : PortSt) : (s.setPort i v).lastPen = s.lastPen := rfl
@[simp] theorem State.setPort_fold (s : State) (i : Nat) (v : PortSt) : (s.setPort i v).fold = s.fold := rfl
@[simp] theorem State.setPort_sched (s : State) (i : Nat) (v : PortSt) : (s.setPort i v).sched = s.sched := rfl
@[simp] theorem State.setPort_perf (s : State) (i : Nat) (v : PortSt) : (s.setPort i v).perf = s.perf := rfl
@[simp] theorem State.setPort_telem (s : State) (i : Nat) (v : PortSt) : (s.setPort i v).telem = s.telem := rfl
@[simp] theorem State.setPort_flock (s : State) (i : Nat) (v : PortSt) : (s.setPort i v).flock = s.flock := rfl
@[simp] theorem State.setPort_crook (s : State) (i : Nat) (v : PortSt) : (s.setPort i v).crook = s.crook := rfl
@[simp] theorem State.setPort_mgmt (s : State) (i : Nat) (v : PortSt) : (s.setPort i v).mgmt = s.mgmt := rfl
@[simp] theorem State.setPort_muster (s : State) (i : Nat) (v : PortSt) : (s.setPort i v).muster = s.muster := rfl

/-! ### State.setLink: a framer -/

@[simp] theorem State.link_setLink (s : State) (i : Nat) (v : LinkSt) : (s.setLink i v).link i = v := by
  simp [State.link, State.setLink, lookD_putD]
theorem State.link_setLink_ne (s : State) {i j : Nat} (v : LinkSt) (h : i ≠ j) : (s.setLink i v).link j = s.link j :=
  lookD_putD_ne _ _ _ v h
theorem canonical_setLink {s : State} (h : Canonical s) (i : Nat) (v : LinkSt) : Canonical (s.setLink i v) := h
@[simp] theorem State.setLink_pending (s : State) (i : Nat) (v : LinkSt) : (s.setLink i v).pending = s.pending := rfl
@[simp] theorem State.setLink_live (s : State) (i : Nat) (v : LinkSt) : (s.setLink i v).live = s.live := rfl
@[simp] theorem State.setLink_staged (s : State) (i : Nat) (v : LinkSt) : (s.setLink i v).staged = s.staged := rfl
@[simp] theorem State.setLink_hostMem (s : State) (i : Nat) (v : LinkSt) : (s.setLink i v).hostMem = s.hostMem := rfl
@[simp] theorem State.setLink_out (s : State) (i : Nat) (v : LinkSt) : (s.setLink i v).out = s.out := rfl
@[simp] theorem State.setLink_free (s : State) (i : Nat) (v : LinkSt) : (s.setLink i v).free = s.free := rfl
@[simp] theorem State.setLink_sys (s : State) (i : Nat) (v : LinkSt) : (s.setLink i v).sys = s.sys := rfl
@[simp] theorem State.setLink_time (s : State) (i : Nat) (v : LinkSt) : (s.setLink i v).time = s.time := rfl
@[simp] theorem State.setLink_log (s : State) (i : Nat) (v : LinkSt) : (s.setLink i v).log = s.log := rfl
@[simp] theorem State.setLink_flash (s : State) (i : Nat) (v : LinkSt) : (s.setLink i v).flash = s.flash := rfl
@[simp] theorem State.setLink_flt (s : State) (i : Nat) (v : LinkSt) : (s.setLink i v).flt = s.flt := rfl
@[simp] theorem State.setLink_pace (s : State) (i : Nat) (v : LinkSt) : (s.setLink i v).pace = s.pace := rfl
@[simp] theorem State.setLink_lanes (s : State) (i : Nat) (v : LinkSt) : (s.setLink i v).lanes = s.lanes := rfl
@[simp] theorem State.setLink_ports (s : State) (i : Nat) (v : LinkSt) : (s.setLink i v).ports = s.ports := rfl
@[simp] theorem State.setLink_host (s : State) (i : Nat) (v : LinkSt) : (s.setLink i v).host = s.host := rfl
@[simp] theorem State.setLink_tab (s : State) (i : Nat) (v : LinkSt) : (s.setLink i v).tab = s.tab := rfl
@[simp] theorem State.setLink_ver (s : State) (i : Nat) (v : LinkSt) : (s.setLink i v).ver = s.ver := rfl
@[simp] theorem State.setLink_frames (s : State) (i : Nat) (v : LinkSt) : (s.setLink i v).frames = s.frames := rfl
@[simp] theorem State.setLink_nextFrame (s : State) (i : Nat) (v : LinkSt) : (s.setLink i v).nextFrame = s.nextFrame := rfl
@[simp] theorem State.setLink_lastPen (s : State) (i : Nat) (v : LinkSt) : (s.setLink i v).lastPen = s.lastPen := rfl
@[simp] theorem State.setLink_fold (s : State) (i : Nat) (v : LinkSt) : (s.setLink i v).fold = s.fold := rfl
@[simp] theorem State.setLink_sched (s : State) (i : Nat) (v : LinkSt) : (s.setLink i v).sched = s.sched := rfl
@[simp] theorem State.setLink_perf (s : State) (i : Nat) (v : LinkSt) : (s.setLink i v).perf = s.perf := rfl
@[simp] theorem State.setLink_telem (s : State) (i : Nat) (v : LinkSt) : (s.setLink i v).telem = s.telem := rfl
@[simp] theorem State.setLink_crook (s : State) (i : Nat) (v : LinkSt) : (s.setLink i v).crook = s.crook := rfl
@[simp] theorem State.setLink_mgmt (s : State) (i : Nat) (v : LinkSt) : (s.setLink i v).mgmt = s.mgmt := rfl
@[simp] theorem State.setLink_muster (s : State) (i : Nat) (v : LinkSt) : (s.setLink i v).muster = s.muster := rfl

/-! ### State.setTout: a pulse output -/

@[simp] theorem State.toutSt_setTout (s : State) (i : Nat) (v : ToutSt) : (s.setTout i v).toutSt i = v := by
  simp [State.toutSt, State.setTout, lookD_putD]
theorem State.toutSt_setTout_ne (s : State) {i j : Nat} (v : ToutSt) (h : i ≠ j) : (s.setTout i v).toutSt j = s.toutSt j :=
  lookD_putD_ne _ _ _ v h
theorem canonical_setTout {s : State} (h : Canonical s) (i : Nat) (v : ToutSt) : Canonical (s.setTout i v) := h
@[simp] theorem State.setTout_pending (s : State) (i : Nat) (v : ToutSt) : (s.setTout i v).pending = s.pending := rfl
@[simp] theorem State.setTout_live (s : State) (i : Nat) (v : ToutSt) : (s.setTout i v).live = s.live := rfl
@[simp] theorem State.setTout_staged (s : State) (i : Nat) (v : ToutSt) : (s.setTout i v).staged = s.staged := rfl
@[simp] theorem State.setTout_hostMem (s : State) (i : Nat) (v : ToutSt) : (s.setTout i v).hostMem = s.hostMem := rfl
@[simp] theorem State.setTout_out (s : State) (i : Nat) (v : ToutSt) : (s.setTout i v).out = s.out := rfl
@[simp] theorem State.setTout_free (s : State) (i : Nat) (v : ToutSt) : (s.setTout i v).free = s.free := rfl
@[simp] theorem State.setTout_sys (s : State) (i : Nat) (v : ToutSt) : (s.setTout i v).sys = s.sys := rfl
@[simp] theorem State.setTout_log (s : State) (i : Nat) (v : ToutSt) : (s.setTout i v).log = s.log := rfl
@[simp] theorem State.setTout_flash (s : State) (i : Nat) (v : ToutSt) : (s.setTout i v).flash = s.flash := rfl
@[simp] theorem State.setTout_flt (s : State) (i : Nat) (v : ToutSt) : (s.setTout i v).flt = s.flt := rfl
@[simp] theorem State.setTout_pace (s : State) (i : Nat) (v : ToutSt) : (s.setTout i v).pace = s.pace := rfl
@[simp] theorem State.setTout_lanes (s : State) (i : Nat) (v : ToutSt) : (s.setTout i v).lanes = s.lanes := rfl
@[simp] theorem State.setTout_ports (s : State) (i : Nat) (v : ToutSt) : (s.setTout i v).ports = s.ports := rfl
@[simp] theorem State.setTout_host (s : State) (i : Nat) (v : ToutSt) : (s.setTout i v).host = s.host := rfl
@[simp] theorem State.setTout_tab (s : State) (i : Nat) (v : ToutSt) : (s.setTout i v).tab = s.tab := rfl
@[simp] theorem State.setTout_ver (s : State) (i : Nat) (v : ToutSt) : (s.setTout i v).ver = s.ver := rfl
@[simp] theorem State.setTout_frames (s : State) (i : Nat) (v : ToutSt) : (s.setTout i v).frames = s.frames := rfl
@[simp] theorem State.setTout_nextFrame (s : State) (i : Nat) (v : ToutSt) : (s.setTout i v).nextFrame = s.nextFrame := rfl
@[simp] theorem State.setTout_lastPen (s : State) (i : Nat) (v : ToutSt) : (s.setTout i v).lastPen = s.lastPen := rfl
@[simp] theorem State.setTout_fold (s : State) (i : Nat) (v : ToutSt) : (s.setTout i v).fold = s.fold := rfl
@[simp] theorem State.setTout_sched (s : State) (i : Nat) (v : ToutSt) : (s.setTout i v).sched = s.sched := rfl
@[simp] theorem State.setTout_perf (s : State) (i : Nat) (v : ToutSt) : (s.setTout i v).perf = s.perf := rfl
@[simp] theorem State.setTout_telem (s : State) (i : Nat) (v : ToutSt) : (s.setTout i v).telem = s.telem := rfl
@[simp] theorem State.setTout_flock (s : State) (i : Nat) (v : ToutSt) : (s.setTout i v).flock = s.flock := rfl
@[simp] theorem State.setTout_crook (s : State) (i : Nat) (v : ToutSt) : (s.setTout i v).crook = s.crook := rfl
@[simp] theorem State.setTout_mgmt (s : State) (i : Nat) (v : ToutSt) : (s.setTout i v).mgmt = s.mgmt := rfl
@[simp] theorem State.setTout_muster (s : State) (i : Nat) (v : ToutSt) : (s.setTout i v).muster = s.muster := rfl

/-! ### State.setTimeLink: the time channel of a link -/

@[simp] theorem State.timeLink_setTimeLink (s : State) (i : Nat) (v : TimeLink) : (s.setTimeLink i v).timeLink i = v := by
  simp [State.timeLink, State.setTimeLink, lookD_putD]
theorem State.timeLink_setTimeLink_ne (s : State) {i j : Nat} (v : TimeLink) (h : i ≠ j) : (s.setTimeLink i v).timeLink j = s.timeLink j :=
  lookD_putD_ne _ _ _ v h
theorem canonical_setTimeLink {s : State} (h : Canonical s) (i : Nat) (v : TimeLink) : Canonical (s.setTimeLink i v) := h
@[simp] theorem State.setTimeLink_pending (s : State) (i : Nat) (v : TimeLink) : (s.setTimeLink i v).pending = s.pending := rfl
@[simp] theorem State.setTimeLink_live (s : State) (i : Nat) (v : TimeLink) : (s.setTimeLink i v).live = s.live := rfl
@[simp] theorem State.setTimeLink_staged (s : State) (i : Nat) (v : TimeLink) : (s.setTimeLink i v).staged = s.staged := rfl
@[simp] theorem State.setTimeLink_hostMem (s : State) (i : Nat) (v : TimeLink) : (s.setTimeLink i v).hostMem = s.hostMem := rfl
@[simp] theorem State.setTimeLink_out (s : State) (i : Nat) (v : TimeLink) : (s.setTimeLink i v).out = s.out := rfl
@[simp] theorem State.setTimeLink_free (s : State) (i : Nat) (v : TimeLink) : (s.setTimeLink i v).free = s.free := rfl
@[simp] theorem State.setTimeLink_sys (s : State) (i : Nat) (v : TimeLink) : (s.setTimeLink i v).sys = s.sys := rfl
@[simp] theorem State.setTimeLink_log (s : State) (i : Nat) (v : TimeLink) : (s.setTimeLink i v).log = s.log := rfl
@[simp] theorem State.setTimeLink_flash (s : State) (i : Nat) (v : TimeLink) : (s.setTimeLink i v).flash = s.flash := rfl
@[simp] theorem State.setTimeLink_flt (s : State) (i : Nat) (v : TimeLink) : (s.setTimeLink i v).flt = s.flt := rfl
@[simp] theorem State.setTimeLink_pace (s : State) (i : Nat) (v : TimeLink) : (s.setTimeLink i v).pace = s.pace := rfl
@[simp] theorem State.setTimeLink_lanes (s : State) (i : Nat) (v : TimeLink) : (s.setTimeLink i v).lanes = s.lanes := rfl
@[simp] theorem State.setTimeLink_ports (s : State) (i : Nat) (v : TimeLink) : (s.setTimeLink i v).ports = s.ports := rfl
@[simp] theorem State.setTimeLink_host (s : State) (i : Nat) (v : TimeLink) : (s.setTimeLink i v).host = s.host := rfl
@[simp] theorem State.setTimeLink_tab (s : State) (i : Nat) (v : TimeLink) : (s.setTimeLink i v).tab = s.tab := rfl
@[simp] theorem State.setTimeLink_ver (s : State) (i : Nat) (v : TimeLink) : (s.setTimeLink i v).ver = s.ver := rfl
@[simp] theorem State.setTimeLink_frames (s : State) (i : Nat) (v : TimeLink) : (s.setTimeLink i v).frames = s.frames := rfl
@[simp] theorem State.setTimeLink_nextFrame (s : State) (i : Nat) (v : TimeLink) : (s.setTimeLink i v).nextFrame = s.nextFrame := rfl
@[simp] theorem State.setTimeLink_lastPen (s : State) (i : Nat) (v : TimeLink) : (s.setTimeLink i v).lastPen = s.lastPen := rfl
@[simp] theorem State.setTimeLink_fold (s : State) (i : Nat) (v : TimeLink) : (s.setTimeLink i v).fold = s.fold := rfl
@[simp] theorem State.setTimeLink_sched (s : State) (i : Nat) (v : TimeLink) : (s.setTimeLink i v).sched = s.sched := rfl
@[simp] theorem State.setTimeLink_perf (s : State) (i : Nat) (v : TimeLink) : (s.setTimeLink i v).perf = s.perf := rfl
@[simp] theorem State.setTimeLink_telem (s : State) (i : Nat) (v : TimeLink) : (s.setTimeLink i v).telem = s.telem := rfl
@[simp] theorem State.setTimeLink_flock (s : State) (i : Nat) (v : TimeLink) : (s.setTimeLink i v).flock = s.flock := rfl
@[simp] theorem State.setTimeLink_crook (s : State) (i : Nat) (v : TimeLink) : (s.setTimeLink i v).crook = s.crook := rfl
@[simp] theorem State.setTimeLink_mgmt (s : State) (i : Nat) (v : TimeLink) : (s.setTimeLink i v).mgmt = s.mgmt := rfl
@[simp] theorem State.setTimeLink_muster (s : State) (i : Nat) (v : TimeLink) : (s.setTimeLink i v).muster = s.muster := rfl

/-! ### State.setCmdq: a command queue -/

@[simp] theorem State.cmdq_setCmdq (s : State) (i : Nat) (v : CmdQueue) : (s.setCmdq i v).cmdq i = v := by
  simp [State.cmdq, State.setCmdq, lookD_putD]
theorem State.cmdq_setCmdq_ne (s : State) {i j : Nat} (v : CmdQueue) (h : i ≠ j) : (s.setCmdq i v).cmdq j = s.cmdq j :=
  lookD_putD_ne _ _ _ v h
theorem canonical_setCmdq {s : State} (h : Canonical s) (i : Nat) (v : CmdQueue) : Canonical (s.setCmdq i v) := h
@[simp] theorem State.setCmdq_pending (s : State) (i : Nat) (v : CmdQueue) : (s.setCmdq i v).pending = s.pending := rfl
@[simp] theorem State.setCmdq_live (s : State) (i : Nat) (v : CmdQueue) : (s.setCmdq i v).live = s.live := rfl
@[simp] theorem State.setCmdq_staged (s : State) (i : Nat) (v : CmdQueue) : (s.setCmdq i v).staged = s.staged := rfl
@[simp] theorem State.setCmdq_hostMem (s : State) (i : Nat) (v : CmdQueue) : (s.setCmdq i v).hostMem = s.hostMem := rfl
@[simp] theorem State.setCmdq_out (s : State) (i : Nat) (v : CmdQueue) : (s.setCmdq i v).out = s.out := rfl
@[simp] theorem State.setCmdq_free (s : State) (i : Nat) (v : CmdQueue) : (s.setCmdq i v).free = s.free := rfl
@[simp] theorem State.setCmdq_sys (s : State) (i : Nat) (v : CmdQueue) : (s.setCmdq i v).sys = s.sys := rfl
@[simp] theorem State.setCmdq_time (s : State) (i : Nat) (v : CmdQueue) : (s.setCmdq i v).time = s.time := rfl
@[simp] theorem State.setCmdq_log (s : State) (i : Nat) (v : CmdQueue) : (s.setCmdq i v).log = s.log := rfl
@[simp] theorem State.setCmdq_flash (s : State) (i : Nat) (v : CmdQueue) : (s.setCmdq i v).flash = s.flash := rfl
@[simp] theorem State.setCmdq_flt (s : State) (i : Nat) (v : CmdQueue) : (s.setCmdq i v).flt = s.flt := rfl
@[simp] theorem State.setCmdq_pace (s : State) (i : Nat) (v : CmdQueue) : (s.setCmdq i v).pace = s.pace := rfl
@[simp] theorem State.setCmdq_lanes (s : State) (i : Nat) (v : CmdQueue) : (s.setCmdq i v).lanes = s.lanes := rfl
@[simp] theorem State.setCmdq_ports (s : State) (i : Nat) (v : CmdQueue) : (s.setCmdq i v).ports = s.ports := rfl
@[simp] theorem State.setCmdq_host (s : State) (i : Nat) (v : CmdQueue) : (s.setCmdq i v).host = s.host := rfl
@[simp] theorem State.setCmdq_tab (s : State) (i : Nat) (v : CmdQueue) : (s.setCmdq i v).tab = s.tab := rfl
@[simp] theorem State.setCmdq_ver (s : State) (i : Nat) (v : CmdQueue) : (s.setCmdq i v).ver = s.ver := rfl
@[simp] theorem State.setCmdq_frames (s : State) (i : Nat) (v : CmdQueue) : (s.setCmdq i v).frames = s.frames := rfl
@[simp] theorem State.setCmdq_nextFrame (s : State) (i : Nat) (v : CmdQueue) : (s.setCmdq i v).nextFrame = s.nextFrame := rfl
@[simp] theorem State.setCmdq_lastPen (s : State) (i : Nat) (v : CmdQueue) : (s.setCmdq i v).lastPen = s.lastPen := rfl
@[simp] theorem State.setCmdq_fold (s : State) (i : Nat) (v : CmdQueue) : (s.setCmdq i v).fold = s.fold := rfl
@[simp] theorem State.setCmdq_sched (s : State) (i : Nat) (v : CmdQueue) : (s.setCmdq i v).sched = s.sched := rfl
@[simp] theorem State.setCmdq_perf (s : State) (i : Nat) (v : CmdQueue) : (s.setCmdq i v).perf = s.perf := rfl
@[simp] theorem State.setCmdq_telem (s : State) (i : Nat) (v : CmdQueue) : (s.setCmdq i v).telem = s.telem := rfl
@[simp] theorem State.setCmdq_flock (s : State) (i : Nat) (v : CmdQueue) : (s.setCmdq i v).flock = s.flock := rfl
@[simp] theorem State.setCmdq_mgmt (s : State) (i : Nat) (v : CmdQueue) : (s.setCmdq i v).mgmt = s.mgmt := rfl
@[simp] theorem State.setCmdq_muster (s : State) (i : Nat) (v : CmdQueue) : (s.setCmdq i v).muster = s.muster := rfl

/-! ### State.setContext: a context of the crook -/

@[simp] theorem State.context_setContext (s : State) (i : Nat) (v : Context) : (s.setContext i v).context i = v := by
  simp [State.context, State.setContext, lookD_putD]
theorem State.context_setContext_ne (s : State) {i j : Nat} (v : Context) (h : i ≠ j) : (s.setContext i v).context j = s.context j :=
  lookD_putD_ne _ _ _ v h
theorem canonical_setContext {s : State} (h : Canonical s) (i : Nat) (v : Context) : Canonical (s.setContext i v) := h
@[simp] theorem State.setContext_pending (s : State) (i : Nat) (v : Context) : (s.setContext i v).pending = s.pending := rfl
@[simp] theorem State.setContext_live (s : State) (i : Nat) (v : Context) : (s.setContext i v).live = s.live := rfl
@[simp] theorem State.setContext_staged (s : State) (i : Nat) (v : Context) : (s.setContext i v).staged = s.staged := rfl
@[simp] theorem State.setContext_hostMem (s : State) (i : Nat) (v : Context) : (s.setContext i v).hostMem = s.hostMem := rfl
@[simp] theorem State.setContext_out (s : State) (i : Nat) (v : Context) : (s.setContext i v).out = s.out := rfl
@[simp] theorem State.setContext_free (s : State) (i : Nat) (v : Context) : (s.setContext i v).free = s.free := rfl
@[simp] theorem State.setContext_sys (s : State) (i : Nat) (v : Context) : (s.setContext i v).sys = s.sys := rfl
@[simp] theorem State.setContext_time (s : State) (i : Nat) (v : Context) : (s.setContext i v).time = s.time := rfl
@[simp] theorem State.setContext_log (s : State) (i : Nat) (v : Context) : (s.setContext i v).log = s.log := rfl
@[simp] theorem State.setContext_flash (s : State) (i : Nat) (v : Context) : (s.setContext i v).flash = s.flash := rfl
@[simp] theorem State.setContext_flt (s : State) (i : Nat) (v : Context) : (s.setContext i v).flt = s.flt := rfl
@[simp] theorem State.setContext_pace (s : State) (i : Nat) (v : Context) : (s.setContext i v).pace = s.pace := rfl
@[simp] theorem State.setContext_lanes (s : State) (i : Nat) (v : Context) : (s.setContext i v).lanes = s.lanes := rfl
@[simp] theorem State.setContext_ports (s : State) (i : Nat) (v : Context) : (s.setContext i v).ports = s.ports := rfl
@[simp] theorem State.setContext_host (s : State) (i : Nat) (v : Context) : (s.setContext i v).host = s.host := rfl
@[simp] theorem State.setContext_tab (s : State) (i : Nat) (v : Context) : (s.setContext i v).tab = s.tab := rfl
@[simp] theorem State.setContext_ver (s : State) (i : Nat) (v : Context) : (s.setContext i v).ver = s.ver := rfl
@[simp] theorem State.setContext_frames (s : State) (i : Nat) (v : Context) : (s.setContext i v).frames = s.frames := rfl
@[simp] theorem State.setContext_nextFrame (s : State) (i : Nat) (v : Context) : (s.setContext i v).nextFrame = s.nextFrame := rfl
@[simp] theorem State.setContext_lastPen (s : State) (i : Nat) (v : Context) : (s.setContext i v).lastPen = s.lastPen := rfl
@[simp] theorem State.setContext_fold (s : State) (i : Nat) (v : Context) : (s.setContext i v).fold = s.fold := rfl
@[simp] theorem State.setContext_sched (s : State) (i : Nat) (v : Context) : (s.setContext i v).sched = s.sched := rfl
@[simp] theorem State.setContext_perf (s : State) (i : Nat) (v : Context) : (s.setContext i v).perf = s.perf := rfl
@[simp] theorem State.setContext_telem (s : State) (i : Nat) (v : Context) : (s.setContext i v).telem = s.telem := rfl
@[simp] theorem State.setContext_flock (s : State) (i : Nat) (v : Context) : (s.setContext i v).flock = s.flock := rfl
@[simp] theorem State.setContext_mgmt (s : State) (i : Nat) (v : Context) : (s.setContext i v).mgmt = s.mgmt := rfl
@[simp] theorem State.setContext_muster (s : State) (i : Nat) (v : Context) : (s.setContext i v).muster = s.muster := rfl

/-! ### State.setMsix: an entry of the MSI-X table -/

@[simp] theorem State.msix_setMsix (s : State) (i : Nat) (v : MsixEntry) : (s.setMsix i v).msix i = v := by
  simp [State.msix, State.setMsix, lookD_putD]
theorem State.msix_setMsix_ne (s : State) {i j : Nat} (v : MsixEntry) (h : i ≠ j) : (s.setMsix i v).msix j = s.msix j :=
  lookD_putD_ne _ _ _ v h
theorem canonical_setMsix {s : State} (h : Canonical s) (i : Nat) (v : MsixEntry) : Canonical (s.setMsix i v) := h
@[simp] theorem State.setMsix_pending (s : State) (i : Nat) (v : MsixEntry) : (s.setMsix i v).pending = s.pending := rfl
@[simp] theorem State.setMsix_live (s : State) (i : Nat) (v : MsixEntry) : (s.setMsix i v).live = s.live := rfl
@[simp] theorem State.setMsix_staged (s : State) (i : Nat) (v : MsixEntry) : (s.setMsix i v).staged = s.staged := rfl
@[simp] theorem State.setMsix_hostMem (s : State) (i : Nat) (v : MsixEntry) : (s.setMsix i v).hostMem = s.hostMem := rfl
@[simp] theorem State.setMsix_out (s : State) (i : Nat) (v : MsixEntry) : (s.setMsix i v).out = s.out := rfl
@[simp] theorem State.setMsix_free (s : State) (i : Nat) (v : MsixEntry) : (s.setMsix i v).free = s.free := rfl
@[simp] theorem State.setMsix_sys (s : State) (i : Nat) (v : MsixEntry) : (s.setMsix i v).sys = s.sys := rfl
@[simp] theorem State.setMsix_time (s : State) (i : Nat) (v : MsixEntry) : (s.setMsix i v).time = s.time := rfl
@[simp] theorem State.setMsix_log (s : State) (i : Nat) (v : MsixEntry) : (s.setMsix i v).log = s.log := rfl
@[simp] theorem State.setMsix_flash (s : State) (i : Nat) (v : MsixEntry) : (s.setMsix i v).flash = s.flash := rfl
@[simp] theorem State.setMsix_flt (s : State) (i : Nat) (v : MsixEntry) : (s.setMsix i v).flt = s.flt := rfl
@[simp] theorem State.setMsix_pace (s : State) (i : Nat) (v : MsixEntry) : (s.setMsix i v).pace = s.pace := rfl
@[simp] theorem State.setMsix_lanes (s : State) (i : Nat) (v : MsixEntry) : (s.setMsix i v).lanes = s.lanes := rfl
@[simp] theorem State.setMsix_ports (s : State) (i : Nat) (v : MsixEntry) : (s.setMsix i v).ports = s.ports := rfl
@[simp] theorem State.setMsix_tab (s : State) (i : Nat) (v : MsixEntry) : (s.setMsix i v).tab = s.tab := rfl
@[simp] theorem State.setMsix_ver (s : State) (i : Nat) (v : MsixEntry) : (s.setMsix i v).ver = s.ver := rfl
@[simp] theorem State.setMsix_frames (s : State) (i : Nat) (v : MsixEntry) : (s.setMsix i v).frames = s.frames := rfl
@[simp] theorem State.setMsix_nextFrame (s : State) (i : Nat) (v : MsixEntry) : (s.setMsix i v).nextFrame = s.nextFrame := rfl
@[simp] theorem State.setMsix_lastPen (s : State) (i : Nat) (v : MsixEntry) : (s.setMsix i v).lastPen = s.lastPen := rfl
@[simp] theorem State.setMsix_fold (s : State) (i : Nat) (v : MsixEntry) : (s.setMsix i v).fold = s.fold := rfl
@[simp] theorem State.setMsix_sched (s : State) (i : Nat) (v : MsixEntry) : (s.setMsix i v).sched = s.sched := rfl
@[simp] theorem State.setMsix_perf (s : State) (i : Nat) (v : MsixEntry) : (s.setMsix i v).perf = s.perf := rfl
@[simp] theorem State.setMsix_telem (s : State) (i : Nat) (v : MsixEntry) : (s.setMsix i v).telem = s.telem := rfl
@[simp] theorem State.setMsix_flock (s : State) (i : Nat) (v : MsixEntry) : (s.setMsix i v).flock = s.flock := rfl
@[simp] theorem State.setMsix_crook (s : State) (i : Nat) (v : MsixEntry) : (s.setMsix i v).crook = s.crook := rfl
@[simp] theorem State.setMsix_mgmt (s : State) (i : Nat) (v : MsixEntry) : (s.setMsix i v).mgmt = s.mgmt := rfl
@[simp] theorem State.setMsix_muster (s : State) (i : Nat) (v : MsixEntry) : (s.setMsix i v).muster = s.muster := rfl

/-! ### State.setMemberSt: a device of the flock -/

@[simp] theorem State.memberSt_setMemberSt (s : State) (i : Nat) (v : MemberSt) : (s.setMemberSt i v).memberSt i = v := by
  simp [State.memberSt, State.setMemberSt, lookD_putD]
theorem State.memberSt_setMemberSt_ne (s : State) {i j : Nat} (v : MemberSt) (h : i ≠ j) : (s.setMemberSt i v).memberSt j = s.memberSt j :=
  lookD_putD_ne _ _ _ v h
theorem canonical_setMemberSt {s : State} (h : Canonical s) (i : Nat) (v : MemberSt) : Canonical (s.setMemberSt i v) := h
@[simp] theorem State.setMemberSt_pending (s : State) (i : Nat) (v : MemberSt) : (s.setMemberSt i v).pending = s.pending := rfl
@[simp] theorem State.setMemberSt_live (s : State) (i : Nat) (v : MemberSt) : (s.setMemberSt i v).live = s.live := rfl
@[simp] theorem State.setMemberSt_staged (s : State) (i : Nat) (v : MemberSt) : (s.setMemberSt i v).staged = s.staged := rfl
@[simp] theorem State.setMemberSt_hostMem (s : State) (i : Nat) (v : MemberSt) : (s.setMemberSt i v).hostMem = s.hostMem := rfl
@[simp] theorem State.setMemberSt_out (s : State) (i : Nat) (v : MemberSt) : (s.setMemberSt i v).out = s.out := rfl
@[simp] theorem State.setMemberSt_free (s : State) (i : Nat) (v : MemberSt) : (s.setMemberSt i v).free = s.free := rfl
@[simp] theorem State.setMemberSt_sys (s : State) (i : Nat) (v : MemberSt) : (s.setMemberSt i v).sys = s.sys := rfl
@[simp] theorem State.setMemberSt_time (s : State) (i : Nat) (v : MemberSt) : (s.setMemberSt i v).time = s.time := rfl
@[simp] theorem State.setMemberSt_log (s : State) (i : Nat) (v : MemberSt) : (s.setMemberSt i v).log = s.log := rfl
@[simp] theorem State.setMemberSt_flash (s : State) (i : Nat) (v : MemberSt) : (s.setMemberSt i v).flash = s.flash := rfl
@[simp] theorem State.setMemberSt_flt (s : State) (i : Nat) (v : MemberSt) : (s.setMemberSt i v).flt = s.flt := rfl
@[simp] theorem State.setMemberSt_pace (s : State) (i : Nat) (v : MemberSt) : (s.setMemberSt i v).pace = s.pace := rfl
@[simp] theorem State.setMemberSt_lanes (s : State) (i : Nat) (v : MemberSt) : (s.setMemberSt i v).lanes = s.lanes := rfl
@[simp] theorem State.setMemberSt_ports (s : State) (i : Nat) (v : MemberSt) : (s.setMemberSt i v).ports = s.ports := rfl
@[simp] theorem State.setMemberSt_host (s : State) (i : Nat) (v : MemberSt) : (s.setMemberSt i v).host = s.host := rfl
@[simp] theorem State.setMemberSt_tab (s : State) (i : Nat) (v : MemberSt) : (s.setMemberSt i v).tab = s.tab := rfl
@[simp] theorem State.setMemberSt_ver (s : State) (i : Nat) (v : MemberSt) : (s.setMemberSt i v).ver = s.ver := rfl
@[simp] theorem State.setMemberSt_frames (s : State) (i : Nat) (v : MemberSt) : (s.setMemberSt i v).frames = s.frames := rfl
@[simp] theorem State.setMemberSt_nextFrame (s : State) (i : Nat) (v : MemberSt) : (s.setMemberSt i v).nextFrame = s.nextFrame := rfl
@[simp] theorem State.setMemberSt_lastPen (s : State) (i : Nat) (v : MemberSt) : (s.setMemberSt i v).lastPen = s.lastPen := rfl
@[simp] theorem State.setMemberSt_fold (s : State) (i : Nat) (v : MemberSt) : (s.setMemberSt i v).fold = s.fold := rfl
@[simp] theorem State.setMemberSt_sched (s : State) (i : Nat) (v : MemberSt) : (s.setMemberSt i v).sched = s.sched := rfl
@[simp] theorem State.setMemberSt_perf (s : State) (i : Nat) (v : MemberSt) : (s.setMemberSt i v).perf = s.perf := rfl
@[simp] theorem State.setMemberSt_telem (s : State) (i : Nat) (v : MemberSt) : (s.setMemberSt i v).telem = s.telem := rfl
@[simp] theorem State.setMemberSt_flock (s : State) (i : Nat) (v : MemberSt) : (s.setMemberSt i v).flock = s.flock := rfl
@[simp] theorem State.setMemberSt_crook (s : State) (i : Nat) (v : MemberSt) : (s.setMemberSt i v).crook = s.crook := rfl
@[simp] theorem State.setMemberSt_muster (s : State) (i : Nat) (v : MemberSt) : (s.setMemberSt i v).muster = s.muster := rfl

end Sys2Proof.Machine
end

