-- ==== Sys2Proof/Tests/Slice0.lean ====
section
/-! SUPPORT. Tests/Slice0.lean: the model's own tests: well-formedness refuses what it should, each statement's hypotheses are
met by a concrete state, and single steps give what the manual's tables say. -/

-- One theorem after another: the evaluations of many at once need more threads than the check allows.
set_option Elab.async false

namespace Sys2Proof.Tests

open Sys2Proof Sys2Proof.Machine

/-! ## Small states -/

/-- A device that is ready, its PCIe link up and no command in it. -/
def ready : State :=
  let sys := { sysReset with fuses := true, crookOn := true, phase := 4, logReady := true }
  let log := { State.reset.log with kept := true, holding := false }
  ({ State.reset with sys, log } : State).puts 0 [(F.hostStatus_LINK_GEN, 6), (F.hostStatus_LINK_WIDTH, 8)]

/-- A ready shepherd of device ID 0. -/
def shep : State := ready.puts 0 [(F.roleCfg_ROLE, 2), (F.identStatus_STATE, 1)]

/-- A device held in reset, as the manual says of RESET_N asserted. -/
def inReset : State := { State.reset with sys := { sysReset with inReset := true } }

/-- A ready device after a fatal fault. -/
def dead : State := { ready with flt := { ready.flt with fatal := true } }

/-- A request of a version 2 packet from station 5 of the sideband ring. -/
def rq (op obj count : Nat) (params : List Word) : Request := ⟨.sideband 5, request2 op 0 7 0 0 obj count params, .none⟩

/-- The same, with a trailer that was accepted, for the opcodes marked A. -/
def rqA (op obj count : Nat) (params : List Word) : Request := { rq op obj count params with auth := .accepted }

/-- A request with flags. -/
def rqF (flags op obj count : Nat) (params : List Word) : Request :=
  ⟨.sideband 5, request2 op flags 7 0 0 obj count params, .none⟩

/-- A request by a PCIe queue whose reply buffer has 4,096 bytes. -/
def rqP (op obj count : Nat) (params : List Word) : Request :=
  ⟨.pcie 0 8192 4096 4096 0, request2 op 0 7 0 0 obj count params, .none⟩

/-- The request as the only held command, number 3. -/
def hd (r : Request) : Held := { n := 3, req := r, ctx := none, late := [], frc := 0, members := [] }

/-- A state with a request held. -/
def holding (r : Request) (s : State) : State := { s with crook := { s.crook with held := [hd r], nextHeld := 4 } }

/-- What Starts asks, decided. -/
def startsB (r : Request) (s : State) : Bool :=
  let t := holding r s
  let b := begun (hd r) 0 t
  !t.sys.inReset && crookUp t && !r.pkt.isReply && waiting r t == some (hd r) && freeContext t == some 0 &&
    mayStart' (hd r) t && !fenceBroken (hd r) t && !elsewhere r.pkt b &&
    (isFlockCommit r.pkt b || !(shepherd b && r.pkt.v2 && r.pkt.bcast)) && !admitWaits r.pkt t &&
    (verdict ((hd r).inCtx 0) b).isNone && (lacksRoom ((hd r).inCtx 0) b).isNone

theorem starts_of {r : Request} {s : State} (h : startsB r s = true) : Starts r (hd r) 0 (holding r s) := by
  simp only [startsB, Bool.and_eq_true, Bool.or_eq_true, Bool.not_eq_true', beq_iff_eq, Option.isNone_iff_eq_none] at h
  obtain ⟨⟨⟨⟨⟨⟨⟨⟨⟨⟨⟨h1, h2⟩, h3⟩, h4⟩, h5⟩, h6⟩, h7⟩, h8⟩, h9⟩, h10⟩, h11⟩, h12⟩ := h
  exact ⟨h1, h2, h3, h4, h5, h6, h7, h8, h9, h10, h11, h12⟩

/-- The request starts as the only command of a state. -/
abbrev St (r : Request) (s : State) : Prop := Starts r (hd r) 0 (holding r s)

/-- That state with the command in its context. -/
abbrev bg (r : Request) (s : State) : State := begun (hd r) 0 (holding r s)

/-- Pairs whose parts are known. -/
theorem pair_some {α β : Type} {x : Option α × β} (h : x.1.isSome = true) : ∃ a b, x = (some a, b) := by
  obtain ⟨a, b⟩ := x
  cases a with
  | none => cases h
  | some a => exact ⟨a, b, rfl⟩

theorem pair_none {α β : Type} {x : Option α × β} (h : x.1.isNone = true) : ∃ b, x = (none, b) := by
  obtain ⟨a, b⟩ := x
  cases a with
  | none => exact ⟨b, rfl⟩
  | some a => cases h

theorem pair_bool {α : Type} {x : α × Bool} {b : Bool} (h : x.2 = b) : ∃ a, x = (a, b) := ⟨x.1, by rw [← h]⟩

theorem some_of {α : Type} {x : Option α} (h : x.isSome = true) : ∃ a, x = some a := Option.isSome_iff_exists.1 h

theorem ok_of {ε α : Type} {x : Except ε α} (h : x.toOption.isSome = true) : ∃ a, x = .ok a := by
  cases x with
  | ok a => exact ⟨a, rfl⟩
  | error _ => cases h

theorem error_of {ε α : Type} {x : Except ε α} (h : x.toOption.isNone = true) : ∃ e, x = .error e := by
  cases x with
  | ok a => cases h
  | error e => exact ⟨e, rfl⟩

/-! ## Well-formedness refuses -/

theorem test_wellFormed_port : Instr.wellFormed (.linkUp 1024) = false := by decide
theorem test_wellFormed_port_last : Instr.wellFormed (.linkUp 1023) = true := by decide
theorem test_wellFormed_lane : Instr.wellFormed (.prbsClear 1024) = false := by decide
theorem test_wellFormed_octet : Instr.wellFormed (.txPageSwitch 128) = false := by decide
theorem test_wellFormed_defect : Instr.wellFormed (.flockDefectDeclare 0 5) = false := by decide
theorem test_wellFormed_ring : Instr.wellFormed (.ringTailWrite (.command true) 256 0 []) = false := by decide
theorem test_wellFormed_ring_rx : Instr.wellFormed (.ringTailWrite (.command false) 256 0 []) = true := by decide
theorem test_wellFormed_doorbell : Instr.wellFormed (.ringTailWrite (.doorbell 4) 0x10000 0 []) = false := by decide
theorem test_wellFormed_slot :
    Instr.wellFormed (.overheadBlockReceive 0 true 0 0 0 [(128, [])] []) = false := by decide
theorem test_wellFormed_patrol : Instr.wellFormed (.flashPatrol [⟨16384, 0, 0, 0⟩]) = false := by decide
theorem test_wellFormed_queue : Instr.wellFormed (.cqHeadWrite 64 0) = false := by decide
theorem test_wellFormed_pll : Instr.wellFormed (.laneCalibrationDone [1023] [128]) = false := by decide
theorem test_wellFormed_channel : Instr.wellFormed (.nop { rq opNop 0 0 [] with chan := .sideband 1024 } .clean) = false := by
  decide +kernel
theorem test_wellFormed_length :
    Instr.wellFormed (.nop { rq opNop 0 0 [1] with pkt := { (rq opNop 0 0 [1]).pkt with params := [] } } .clean) = false := by
  decide +kernel
theorem test_wellFormed_trailer :
    Instr.wellFormed (.nop { rq opNop 0 0 [] with pkt := { (rq opNop 0 0 []).pkt with trailer := some 0 } } .clean) = false := by
  decide +kernel
theorem test_wellFormed_parts : Instr.wellFormed (.nop (rq opNop 0 0 []) ⟨[], some 2048, [], 0⟩) = false := by decide +kernel
theorem test_wellFormed_partsAgain : Instr.wellFormed (.nop (rq opNop 0 0 []) ⟨[], none, [], 2048⟩) = false := by
  decide +kernel
theorem test_wellFormed_nop : Instr.wellFormed (.nop (rq opNop 0 0 [1]) .clean) = true := by decide +kernel
theorem test_decode_none : decodeTableWord 16 5 = none := by decide

/-! ## Steps, reset -/

theorem witness_StepTakesTheFront : ({ ready with pending := [.romCheckStart] } : State).pending = .romCheckStart :: [] := by decide
theorem witness_IdleStepIsANanosecond : (Awake ready ∧ ready.pending = []) ∧ inReset.sys.inReset = true ∧ inReset.pending = [] := by
  decide +kernel
theorem witness_CommandsComplete :
    Sys2Proof.Machine.Instr.actsOnOne (.linkUp 1024) = true ∧
    (∃ e ∈ (Instr.linkUp 1024).elements.head?, e.2 ≤ e.1) := ⟨rfl, (1024, 1024), rfl, by decide⟩
theorem witness_ResetHolds : HeldInReset inReset ∧ step inReset = .next inReset := by
  refine ⟨⟨?_, ?_, ?_, ?_, ?_, ?_⟩, rfl⟩ <;> decide +kernel
theorem witness_ResetBegins : Awake ready := by decide
theorem witness_VersionsAfterReset :
    (State.reset.putSt F.versionCfg_COMMIT_TIMEOUT 0 0).getSt F.versionCfg_COMMIT_TIMEOUT 0 < 1 ∧
    1000000 < (State.reset.putSt F.versionCfg_COMMIT_TIMEOUT 0 1000001).getSt F.versionCfg_COMMIT_TIMEOUT 0 ∧
    (State.reset.putSt F.versionCfg_DRAIN_LIMIT 0 9).getSt F.versionCfg_DRAIN_LIMIT 0 < 10 ∧
    100000 < (State.reset.putSt F.versionCfg_DRAIN_LIMIT 0 100001).getSt F.versionCfg_DRAIN_LIMIT 0 := by decide +kernel

/-! ## Commands of packets -/

theorem witness_NopAndGetInfoAnswer : St (rq opNop 0 0 [9]) ready ∧ St (rq opGetInfo 0 0 []) ready :=
  ⟨starts_of (by decide +kernel), starts_of (by decide +kernel)⟩

/-- A ready device whose action entry 0 is uncorrectable. -/
def badAction : State :=
  { ready with flt := { ready.flt with upset := [(wordRef (instOf 0x08 0) (oid .action 0 * 16), 3)] } }

def rqRead : Request := rq opRead (oid .action 0) 1 []
def rqDma : Request := rqP opReadDma (oid .action 0) 1 [8192]
def rqHarvest : Request := rq opHitHarvest 0 0 [1, 0]

theorem witness_ReadsAnswerWords :
    St rqRead ready ∧ objectsOf rqRead.pkt = some (.action, 0, 1) ∧
    (∃ ws t, readMany false .action 1 0 (bg rqRead ready) = (some ws, t)) ∧
    (∃ t, readMany false .action 1 0 (bg rqRead badAction) = (none, t)) ∧
    St rqDma ready ∧ objectsOf rqDma.pkt = some (.action, 0, 1) ∧
    St rqHarvest ready ∧
    (∃ ws t, readMany false .hitWord 1 0 (bg rqHarvest ready) = (some ws, t)) :=
  ⟨starts_of (by decide +kernel), by decide +kernel, pair_some (by decide +kernel), pair_none (by decide +kernel),
    starts_of (by decide +kernel), by decide +kernel, starts_of (by decide +kernel), pair_some (by decide +kernel)⟩

def rqWrite : Request := rq opWrite (oid .recCfg 0) 1 [0]
def rqMasked : Request := rq opWriteMasked (oid .recCfg 0) 1 [0, 0]
def rqList : Request := rq opWriteList 0 0 [BitVec.ofNat 64 (oid .recCfg 0 * 2 ^ 16 + 1), 0]
def rqListA : Request := rqF 2 opWriteList 0 0 [BitVec.ofNat 64 (oid .recCfg 0 * 2 ^ 16 + 1), 0]
def rqListBad : Request := rqF 2 opWriteList 0 0 [BitVec.ofNat 64 (oid .prbsCtrl 0 * 2 ^ 16 + 1), BitVec.ofNat 64 (2 ^ 64 - 1)]

theorem witness_WritesTakeEffect :
    St rqWrite ready ∧ isCollect rqWrite.pkt = false ∧ St rqMasked ready ∧ objectsOf rqMasked.pkt = some (.recCfg, 0, 1) ∧
    St rqList ready ∧ (∃ ws, listWrites rqList.pkt = some ws) ∧ rqList.pkt.atomic = false ∧
    St rqListBad ready ∧ rqListBad.pkt.atomic = true ∧ (∃ ws, listWrites rqListBad.pkt = some ws ∧
      ((writeUnits ws).any fun u => lookD stOk (listChecks ws (bg rqListBad ready)) u != stOk) = true) ∧
    St rqListA ready ∧ rqListA.pkt.atomic = true ∧ (∃ ws, listWrites rqListA.pkt = some ws ∧
      ∀ u ∈ writeUnits ws, lookD stOk (listChecks ws (bg rqListA ready)) u = stOk) :=
  ⟨starts_of (by decide +kernel), by decide +kernel, starts_of (by decide +kernel), by decide +kernel,
    starts_of (by decide +kernel), some_of (by decide +kernel), by decide +kernel, starts_of (by decide +kernel),
    by decide +kernel, ⟨(listWrites rqListBad.pkt).getD [], by decide +kernel, by decide +kernel⟩,
    starts_of (by decide +kernel), by decide +kernel, (listWrites rqListA.pkt).getD [], by decide +kernel, by decide +kernel⟩

def rqCommit : Request := rq opCommit (0x09 * 2 ^ 40) 0 []
def rqCommits : Request := rq opCommit 0 0 [BitVec.ofNat 64 (2 ^ 9 + 2 ^ 17)]
def rqCommitA : Request := rqF 2 opCommit 0 0 [BitVec.ofNat 64 (2 ^ 9)]
def rqDiscard : Request := rq opDiscard (0x11 * 2 ^ 40) 0 []
def rqDiscards : Request := rq opDiscard 0 0 [BitVec.ofNat 64 (2 ^ 9 + 2 ^ 17)]

/-- A ready device whose staged COMMIT_TIMEOUT is out of range. -/
def badVersions : State := ready.putSt F.versionCfg_COMMIT_TIMEOUT 0 0

theorem witness_CommitAndDiscardTakeEffect :
    St rqCommit ready ∧ unitsOf' rqCommit.pkt = some ([0x09], false) ∧
    unitOk 0x09 [0x09] (atAcceptance [] (bg rqCommit ready)) = true ∧
    unitOk 0x09 [0x09] (atAcceptance [] (bg rqCommit badVersions)) = false ∧ St rqCommit badVersions ∧
    St rqCommits ready ∧ unitsOf' rqCommits.pkt = some ([0x09, 0x11], true) ∧ rqCommits.pkt.atomic = false ∧
    St rqCommitA badVersions ∧ unitsOf' rqCommitA.pkt = some ([0x09], true) ∧ rqCommitA.pkt.atomic = true ∧
    unitOk 0x09 [0x09] (atAcceptance [] (bg rqCommitA badVersions)) = false ∧
    St rqCommitA ready ∧ unitOk 0x09 [0x09] (atAcceptance [] (bg rqCommitA ready)) = true ∧
    St rqDiscard ready ∧ unitsOf' rqDiscard.pkt = some ([0x11], false) ∧
    St rqDiscards ready ∧ unitsOf' rqDiscards.pkt = some ([0x09, 0x11], true) := by
  refine ⟨starts_of ?_, ?_, ?_, ?_, starts_of ?_, starts_of ?_, ?_, ?_, starts_of ?_, ?_, ?_, ?_, starts_of ?_, ?_, starts_of ?_,
    ?_, starts_of ?_, ?_⟩ <;> decide +kernel

/-- A ready device with exact-match table 0 valid, and one entry of key 5 in it, of the staged version. -/
def em0 : State := ready.put F.emTable_VALID 0 1
def em1 : State := (emInsertDo 0 false 5 0 (stagedVer em0) em0).toOption.getD em0

def rqIns (k : Nat) : Request := rq opEmInsert 0 0 [0, 0, 0, BitVec.ofNat 64 k]
def rqDel : Request := rq opEmDelete 0 0 [0, 0, 0, 5]
def rqLook : Request := rq opEmLookup 0 0 [BitVec.ofNat 64 (4 * 2 ^ 56), 0, 0, 5]

/-- The state in which the words of the key's bucket have been evaluated. -/
def emSeen (r : Request) (s : State) : State := (emEval 0 (emKey' r.pkt) (bg r s)).1

theorem witness_EmCommandsTakeEffect :
    (St (rqIns 5) em0 ∧ emParamOk (rqIns 5).pkt (bg (rqIns 5) em0) = true ∧
      (emEval 0 5 (bg (rqIns 5) em0)).2 = false ∧
      (∃ u, emInsertDo 0 false 5 0 (stagedVer (emSeen (rqIns 5) em0)) (emSeen (rqIns 5) em0) = .ok u)) ∧
    (St (rqIns 5) em1 ∧
      (∃ e, emInsertDo 0 false 5 0 (stagedVer (emSeen (rqIns 5) em1)) (emSeen (rqIns 5) em1) = .error e)) ∧
    (St rqDel em1 ∧ (∃ x, emFind 0 5 (stagedVer (emSeen rqDel em1)) (emSeen rqDel em1) = some x)) ∧
    (St rqDel em0 ∧ emFind 0 5 (stagedVer (emSeen rqDel em0)) (emSeen rqDel em0) = none) ∧
    (St rqLook em1 ∧ bits (pw rqLook.pkt 0) 58 56 = 4 ∧
      (∃ x, emFind 0 5 (stagedVer (emSeen rqLook em1)) (emSeen rqLook em1) = some x)) ∧
    (St rqLook em0 ∧ emFind 0 5 (stagedVer (emSeen rqLook em0)) (emSeen rqLook em0) = none) := by
  refine ⟨⟨starts_of ?_, ?_, ?_, ok_of ?_⟩, ⟨starts_of ?_, error_of ?_⟩, ⟨starts_of ?_, some_of ?_⟩, ⟨starts_of ?_, ?_⟩,
    ⟨starts_of ?_, ?_, some_of ?_⟩, ⟨starts_of ?_, ?_⟩⟩ <;> decide +kernel

/-- An entry that EM_INSERT has made is found at its home bucket, in the staged version only (R123, R125). -/
theorem test_emInsert_visible :
    (emFind 0 5 1 em1).isSome = true ∧ emFind 0 5 0 em1 = none ∧ emFind 0 6 1 em1 = none := by decide +kernel

def rqRule : Request := rq opRuleInsert 0 0 (List.replicate 11 0)
def rqRuleDel : Request := rq opRuleDelete 0 0 [0]
def rqRel : Request := rq opObjRelease (oid .action 7) 1 []
def rqLearn : Request := rq opLearnAck 0 0 [BitVec.ofNat 64 (3 * 2 ^ 48 + 0xAB)]
def rqTally : Request := rq opTallyReadClear 0 0 [0, 0, 9]

def ruleIn : State := ruleInsertDo 0 0 (stagedVer ready) ready
def relLive : State := ready.put F.action_STATE 7 2
def strayIn : State := { ready with tab := { ready.tab with filter := [⟨0xAB, 3, 1, 0⟩] } }
def tally0 : State := ready.puts 0 [(F.emTable_VALID, 1), (F.emTable_KIND, 1)]
def tally1 : State := (emInsertDo 0 false 9 0 0 tally0).toOption.getD tally0

theorem witness_TableCommandsTakeEffect :
    (St rqRule ready ∧ (evalObj .ruleCtrl 0 (bg rqRule ready)).2 = false) ∧
    (St rqRule ruleIn ∧ (evalObj .ruleCtrl 0 (bg rqRule ruleIn)).1.on F.ruleCtrl_VALID 0 = true) ∧
    (St rqRuleDel ruleIn ∧ ruleVisible 0 (stagedVer ruleIn) ruleIn = true) ∧ St rqRuleDel ready ∧
    (St rqRel relLive ∧ decodeOid rqRel.pkt.obj = some (.action, 7) ∧
      (releaseDo .action 7 1 (evalObj .action 7 (bg rqRel relLive)).1).isSome = true) ∧
    (St rqRel ready ∧ (evalObj .action 7 (bg rqRel ready)).2 = false ∧
      releaseDo .action 7 1 (evalObj .action 7 (bg rqRel ready)).1 = none) ∧
    (St rqLearn strayIn ∧ ∃ e ∈ strayIn.tab.filter, e.addr = pw rqLearn.pkt 0 % 2 ^ 48 ∧ e.fid = bits (pw rqLearn.pkt 0) 61 48) ∧
    (St rqTally tally1 ∧ (emEval 0 9 (bg rqTally tally1)).2 = false ∧
      (emFind 0 9 (currentVer (emEval 0 9 (bg rqTally tally1)).1) (emEval 0 9 (bg rqTally tally1)).1).isSome = true) := by
  refine ⟨⟨starts_of ?_, ?_⟩, ⟨starts_of ?_, ?_⟩, ⟨starts_of ?_, ?_⟩, starts_of ?_, ⟨starts_of ?_, ?_, ?_⟩,
    ⟨starts_of ?_, ?_, ?_⟩, ⟨starts_of ?_, ?_⟩, ⟨starts_of ?_, ?_, ?_⟩⟩ <;> decide +kernel

def rqVer (op : Nat) (ps : List Word) : Request := rq op 0 0 ps

/-- No slot is FREE: a commit or prepare waits. -/
def noSlot : State := ((ready.put F.slot_STATE 1 2).put F.slot_STATE 2 2).put F.slot_STATE 3 2
def prepared : State := { ready with ver := { ready.ver with prepared := some 1 } }

theorem witness_VersionCommandsTakeEffect :
    (St (rqVer opVersionCommit [2]) ready ∧ expectDiffers (rqVer opVersionCommit [2]).pkt ready = true) ∧
    St (rqVer opVersionDiscard [2]) ready ∧ St (rqVer opVersionPrepare [2]) ready ∧
    (St (rqVer opVersionCommit [1]) ready ∧ expectDiffers (rqVer opVersionCommit [1]).pkt ready = false ∧
      isFlockCommit (rqVer opVersionCommit [1]).pkt ready = false ∧ commitReady (bg (rqVer opVersionCommit [1]) ready) = true) ∧
    (St (rqVer opVersionCommit [1]) noSlot ∧ noSlot.ver.prepared = none ∧
      commitReady (bg (rqVer opVersionCommit [1]) noSlot) = false) ∧
    St (rqVer opVersionDiscard []) ready ∧ (St (rqVer opVersionPrepare [1]) prepared ∧ prepared.ver.prepared.isSome = true) ∧
    (St (rqVer opVersionPrepare [1]) ready ∧ commitReady (bg (rqVer opVersionPrepare [1]) ready) = true) ∧
    (St (rqVer opVersionPrepare [1]) noSlot ∧ commitReady (bg (rqVer opVersionPrepare [1]) noSlot) = false) := by
  refine ⟨⟨starts_of ?_, ?_⟩, starts_of ?_, starts_of ?_, ⟨starts_of ?_, ?_, ?_, ?_⟩, ⟨starts_of ?_, ?_, ?_⟩, starts_of ?_,
    ⟨starts_of ?_, ?_⟩, ⟨starts_of ?_, ?_⟩, ⟨starts_of ?_, ?_⟩⟩ <;> decide +kernel

/-- One record in the log. -/
def logged : State := recPlain 0x20 0 0 ready
def pending1 : State := (ready.puts 7 [(F.srcStatus_PENDING, 1)])
def rqRec : Request := rq opRecorderRead 0 0 [1, 1]
def rqClear : Request := rqA opRecorderClear 0 0 []
def rqAck (n : Nat) : Request := rq opFaultAck 0 0 [BitVec.ofNat 64 n]
def rqInj (w : Nat) : Request := rq opFaultInject 0 0 [BitVec.ofNat 64 w]

theorem witness_RecorderAndFaultCommandsTakeEffect :
    (St rqRec ready ∧ readLog 1 1 (closedLog (bg rqRec ready)) = none) ∧
    (St rqRec logged ∧ (∃ rs, readLog 1 1 (closedLog (bg rqRec logged)) = some rs) ∧
      (evalRecords 1 1 (closedLog (bg rqRec logged))).2 = false) ∧
    St rqClear ready ∧ (St (rqAck 0) ready ∧ srcDefined 0 = false) ∧
    (St (rqAck 7) pending1 ∧ srcDefined 7 = true ∧ (faultAckDo 7 (bg (rqAck 7) pending1)).isSome = true) ∧
    (St (rqAck 7) ready ∧ faultAckDo 7 (bg (rqAck 7) ready) = none) ∧
    (St (rqInj (instOf 0x08 0 * 2 ^ 16 + 1)) ready ∧
      (∃ t, faultInjectDo (instOf 0x08 0) 1 (bg (rqInj (instOf 0x08 0 * 2 ^ 16 + 1)) ready) = .ok t)) ∧
    (St (rqInj 0) ready ∧ (∃ b, faultInjectDo 0 0 (bg (rqInj 0) ready) = .error b)) := by
  refine ⟨⟨starts_of ?_, ?_⟩, ⟨starts_of ?_, some_of ?_, ?_⟩, starts_of ?_, ⟨starts_of ?_, ?_⟩, ⟨starts_of ?_, ?_, ?_⟩,
    ⟨starts_of ?_, ?_⟩, ⟨starts_of ?_, ok_of ?_⟩, ⟨starts_of ?_, error_of ?_⟩⟩ <;> decide +kernel

def rqUnit (u i : Nat) : Request := rq opUnitReset (u * 2 ^ 40 + i) 0 []
def rqKey : Request := rqA opCustodySet 0 0 [1, 2, 3, 4]
def noWrites : State := { ready with crook := { ready.crook with writesLeft := 0 } }

theorem witness_UnitAndIdentityCommandsTakeEffect :
    (St (rqUnit 0x08 3) ready ∧ resetRuns (rqUnit 0x08 3).pkt (unitResetDo 0x08 3 (bg (rqUnit 0x08 3) ready)) = false ∧
      ∀ e ∈ resetsHeld (bg (rqUnit 0x08 3) ready), e.n = 3 ∨ oidUnit e.req.pkt.obj ≠ 0x08) ∧
    (St (rqUnit 0x0A 0) ready ∧ resetRuns (rqUnit 0x0A 0).pkt (unitResetDo 0x0A 0 (bg (rqUnit 0x0A 0) ready)) = true) ∧
    (St (rqUnit 0x12 15) ready ∧ ∀ e ∈ resetsHeld (bg (rqUnit 0x12 15) ready), e.n = 3 ∨ oidUnit e.req.pkt.obj ≠ 0x12) ∧
    St (rqA opDeviceReset 0 0 []) ready ∧ St (rq opIdentChallenge 0 0 [1, 2, 3, 4]) ready ∧
    (St rqKey noWrites ∧ noWrites.crook.writesLeft = 0) ∧ (St rqKey ready ∧ ready.crook.writesLeft = 64) := by
  refine ⟨⟨starts_of ?_, ?_, ?_⟩, ⟨starts_of ?_, ?_⟩, ⟨starts_of ?_, ?_⟩, starts_of ?_, starts_of ?_, ⟨starts_of ?_, ?_⟩,
    ⟨starts_of ?_, ?_⟩⟩ <;> decide +kernel
/-- A ready worker of device ID 0 (the straps of State.reset), and requests of ADMIT by its control pipe. -/
def rqAdmit (mode d : Nat) : Request :=
  ⟨.flock 2, request2 opAdmit 8 7 0 0 0 0 [BitVec.ofNat 64 (mode * 2 ^ 62 + 9 * 2 ^ 16 + d)], .accepted⟩

/-- A shepherd that has met device 5. -/
def shep5 : State := shep.put F.memberDev_STATE 5 2
def rqAdmitS (mode : Nat) : Request :=
  ⟨.sideband 5, request2 opAdmit 8 7 0 0 0 0 [BitVec.ofNat 64 (mode * 2 ^ 62 + 5)], .accepted⟩

theorem witness_AdmitTakesEffect :
    (St (rqAdmit 0 1) ready ∧ ready.get F.roleCfg_ROLE 0 = 1 ∧ admitDev (rqAdmit 0 1).pkt ≠ ready.sys.devid) ∧
    (St (rqAdmit 0 0) ready ∧ admitMode (rqAdmit 0 0).pkt = 0 ∧ (rqAdmit 0 0).chan = .flock 2) ∧
    (St (rqAdmit 1 0) ready ∧ admitMode (rqAdmit 1 0).pkt = 1) ∧
    (St (rqAdmitS 1) shep5 ∧ shep5.get F.roleCfg_ROLE 0 = 2 ∧ admitDev (rqAdmitS 1).pkt ≠ shep5.sys.devid ∧
      memberState 5 shep5 ≠ 0 ∧ admitMode (rqAdmitS 1).pkt = 1) ∧
    (St (rqAdmitS 0) shep5 ∧ admitMode (rqAdmitS 0).pkt = 0) ∧
    (St (rqAdmitS 2) shep5 ∧ admitMode (rqAdmitS 2).pkt = 2) := by
  refine ⟨⟨starts_of ?_, ?_, ?_⟩, ⟨starts_of ?_, ?_, ?_⟩, ⟨starts_of ?_, ?_⟩, ⟨starts_of ?_, ?_, ?_, ?_, ?_⟩,
    ⟨starts_of ?_, ?_⟩, ⟨starts_of ?_, ?_⟩⟩ <;> decide +kernel

def rqCollect (i n : Nat) (orig : Nat) : Request :=
  ⟨.flock 2, request2 opWrite 1024 7 0 orig (oid .collect i) n (List.replicate n 0), .none⟩

theorem witness_CollectWriteTakesEffect :
    (St (rqCollect 0 5 6) shep5 ∧ isCollect (rqCollect 0 5 6).pkt = true ∧ memberState 6 shep5 ≠ 2) ∧
    (St (rqCollect 0 5 5) shep5 ∧ memberState 5 shep5 = 2 ∧ (rqCollect 0 5 5).pkt.obj % 2 ^ 32 = 0 ∧
      shep5.tab.notices.length < 4096) ∧
    (St (rqCollect 1 2 5) shep5 ∧ (rqCollect 1 2 5).pkt.obj % 2 ^ 32 ≠ 0) := by
  refine ⟨⟨starts_of ?_, ?_, ?_⟩, ⟨starts_of ?_, ?_, ?_, ?_⟩, ⟨starts_of ?_, ?_⟩⟩ <;> decide +kernel

/-! ## Queues, channels and the flock -/

def waits (prepare : Bool) (d : Nat) (s : State) : State := { s with ver := { s.ver with wait := some ⟨some 3, prepare, d⟩ } }

theorem witness_VersionWaitsEnd :
    (∀ prepare, Awake (waits prepare 0 ready) ∧ commitReady (waits prepare 0 ready) = true ∧
      commitReady (waits prepare 0 noSlot) = false ∧ 0 ≤ (waits prepare 0 ready).time.frc ∧
      (waits prepare 1 ready).time.frc < 1) ∧
    (waits false 0 ready).ver.wait = some { who := some 3, prepare := false, deadline := 0 } ∧
    (waits true 0 ready).ver.wait = some { who := some 3, prepare := true, deadline := 0 } ∧
    (waits false 0 noSlot).ver.wait = some { who := some 3, prepare := false, deadline := 0 } ∧
    (waits true 1 ready).ver.wait = some { who := some 3, prepare := true, deadline := 1 } := by decide +kernel

def rqFlock : Request := rqF 258 opVersionCommit 0 0 [1]
def flockAt (phase : Nat) : State :=
  { shep5 with mgmt := { shep5.mgmt with commit := some ⟨3, phase, some 1, [0, 5], [0], [], 0, 0⟩ } }

theorem witness_FlockCommitGoesOn :
    (St rqFlock shep5 ∧ isFlockCommit rqFlock.pkt shep5 = true) ∧
    (Awake (flockAt 0) ∧ ∃ c, (flockAt 0).mgmt.commit = some c ∧ flockOpen c = [5] ∧ c.phase = 0 ∧ c.deadline ≤ (flockAt 0).time.frc) ∧
    (∃ c, (flockAt 1).mgmt.commit = some c ∧ flockOpen c = [5] ∧ c.phase = 1 ∧ c.nextSend ≤ (flockAt 1).time.frc ∧
      ∀ d ∈ flockOpen c, memberState d (flockAt 1) = 2) := by
  refine ⟨⟨starts_of ?_, ?_⟩, ⟨?_, ⟨3, 0, some 1, [0, 5], [0], [], 0, 0⟩, rfl, ?_, ?_, ?_⟩,
    ⟨⟨3, 1, some 1, [0, 5], [0], [], 0, 0⟩, rfl, ?_, ?_, ?_, ?_⟩⟩ <;> decide +kernel

/-- Lanes in L0, and those lanes in near-end loopback or with what else is given. -/
def lanesUp (ls : List Nat) (s : State) : State := ls.foldl (fun s l => s.put F.lanePower_STATE l 0) s
def looped (ls : List Nat) (n : Nat) (s : State) : State := ls.foldl (fun s l => s.put F.laneCfg_LOOPBACK l n) s
/-- Octet 0 as a flock link in frame whose lanes hear the line, slot 0 of either page having a type. -/
def carries (ty : Nat) : State :=
  let s := lanesUp (octetLanes 0) ((ready.put F.octetCfg_MODE 0 2).put F.linkCfg_EN 0 1)
  ((s.put F.linkStatus_IN_FRAME 0 1).put F.conn_RX_TYPE (connBase 0 0) ty).put F.conn_RX_TYPE (connBase 0 1) ty

/-- A packet whose trailer nothing can check: no secret is set. -/
def signed : Packet := { request2 opNop 8 7 0 0 0 0 [] with trailer := some 1 }

theorem witness_PacketsAreDiscarded :
    (Awake ready ∧ crookUp ready = true) ∧ parsePacket [] = .error false ∧ parsePacket [0x30] = .error true ∧
    (∃ p, parsePacket (packetBytes signed) = .ok p ∧ p.isReply = false ∧ checkTrailer p ready = none) ∧
    ((∀ o, Channel.sideband 5 ≠ .flock o) ∧ channelHears 0 2 (carries 2) = true ∧ channelHears 0 2 ready = false) := by
  refine ⟨by decide +kernel, by rfl, by rfl, ⟨((parsePacket (packetBytes signed)).toOption).getD signed, ?_, ?_, ?_⟩, ?_⟩
  · obtain ⟨p, hp⟩ := ok_of (x := parsePacket (packetBytes signed)) (by decide +kernel)
    rw [hp]; rfl
  · decide +kernel
  · decide +kernel
  · exact ⟨fun _ => Channel.noConfusion, by decide +kernel, by decide +kernel⟩

def full : State :=
  { ready with crook := { ready.crook with held := List.replicate 256 (hd (rq opNop 0 0 [])) } }
/-- A worker and a shepherd whose octet 0 carries a control slot; the worker has a route to device 5. -/
def route5 : State := (carries 2).puts 5 [(F.route_VALID, 1), (F.route_OCTET, 3)]
def shepPipe : State := (carries 2).puts 0 [(F.roleCfg_ROLE, 2), (F.identStatus_STATE, 1)]
/-- What a control pipe carries of a packet: its bytes, then their FCS. -/
def piped (p : Packet) : List Byte := withFcs (packetBytes p)
def isPiped (p : Packet) : Bool :=
  let bs := piped p
  fcsGood bs && (parsePacket (bs.take (bs.length - 4))).toOption == some p
def toFive : Packet := request2 opNop 512 7 5 0 0 0 []
def relaying : State := { shep with mgmt := { shep.mgmt with relays := [⟨3, 5, toFive, 0⟩] } }
def relayingB : State :=
  { relaying with mgmt := { relaying.mgmt with bcasts := [⟨3, none, []⟩] } }

theorem witness_ControlPipesAndRelays :
    (Awake ready ∧ channelHears 0 2 ready = false ∧ hearsLoop (octetLanes 0) ready = false ∧ fcsGood [0] = false) ∧
    (Awake shepPipe ∧ channelHears 0 2 shepPipe = true ∧ hearsLoop (octetLanes 0) shepPipe = false ∧
      hearsLine (octetLanes 0) shepPipe = true ∧ crookUp shepPipe = true ∧ shepPipe.get F.roleCfg_ROLE 0 ≠ 1 ∧
      isPiped (rq opNop 0 0 []).pkt = true ∧ (rq opNop 0 0 []).pkt.isReply = false ∧ heldFull shepPipe = false ∧
      heldFull full = true) ∧
    (channelHears 0 2 route5 = true ∧ hearsLine (octetLanes 0) route5 = true ∧ crookUp route5 = true ∧
      route5.get F.roleCfg_ROLE 0 = 1 ∧ isPiped toFive = true ∧ toFive.isReply = false ∧ toFive.v2 = true ∧
      toFive.relayed = true ∧ toFive.dst ≠ route5.sys.devid ∧ routeOf 5 route5 = some 3) ∧
    (let r := replyTo toFive 0 []
     isPiped r = true ∧ r.isReply = true ∧ (r.v2 && r.upstream) = false) ∧
    (let r : Relay := ⟨3, 5, toFive, 0⟩
     let after (s : State) : State := dropRelay r (replyPacket (toFive.setFlag 9 false) stTimeout [] s).2
     relaying.mgmt.relays[0]? = some r ∧ r.deadline ≤ relaying.frc ∧
      (after relaying).mgmt.bcasts.any (·.n == r.n) = false ∧ relayingB.mgmt.relays[0]? = some r ∧
      (after relayingB).mgmt.bcasts.any (·.n == r.n) = true) := by
  refine ⟨?_, ?_, ?_, ?_, ?_⟩ <;> decide +kernel

/-- Queue 0 enabled with 16 entries in each ring. -/
def queued : State := ready.setCmdq 0 ⟨0x10000, 0x20000, true, 4, 4, 0, 0, 0, 0, true, []⟩

theorem witness_CommandQueuesWork :
    (Awake queued ∧ pcieUp queued = true ∧ 15 < 2 ^ (queued.cmdq 0).sqLog2 ∧ 15 < 2 ^ (queued.cmdq 0).cqLog2) ∧
    ((ready.cmdq 63).enable = false ∧ cmdQuiesced 63 ready = true ∧ (64 : BitVec 64).toNat % 64 = 0 ∧
      4 ≤ (4 : BitVec 4).toNat ∧ (12 : BitVec 4).toNat ≤ 12) ∧
    (queued.cmdq 0).enable = true := by decide +kernel

def commandFrame : State :=
  let f := { blankFrame 0 with
    loc := .queue 65664, qnum := 65664, ended := true, bytes := List.replicate 68 0, cells := [(0, 0)] }
  { ready with frames := [f] }
/-- The same where the first word of its cell is uncorrectable. -/
def badFrame : State :=
  { commandFrame with flt := { commandFrame.flt with upset := [(wordRef (instOf 0x0A 0) 0, 3)] } }

theorem witness_InbandFramesAreTaken :
    PathAwake commandFrame ∧ crookUp commandFrame = true ∧ heldFull commandFrame = false ∧
    (∃ t f u, select 1026 true commandFrame = some (t, f) ∧ f.ended = true ∧ takeWords 1026 t f commandFrame = (u, false)) ∧
    ∃ t f u, select 1026 true badFrame = some (t, f) ∧ f.ended = true ∧ takeWords 1026 t f badFrame = (u, true) := by
  have h : ∀ s b, (select 1026 true s).any (fun x => x.2.ended && (takeWords 1026 x.1 x.2 s).2 == b) = true →
      ∃ t f u, select 1026 true s = some (t, f) ∧ f.ended = true ∧ takeWords 1026 t f s = (u, b) := by
    intro s b h
    cases hs : select 1026 true s with
    | none => rw [hs] at h; cases h
    | some x =>
      rw [hs] at h
      simp only [Option.any_some, Bool.and_eq_true, beq_iff_eq] at h
      exact ⟨x.1, x.2, _, rfl, h.1, Prod.ext rfl h.2⟩
  exact ⟨by decide, by decide, by decide, h _ _ (by decide +kernel), h _ _ (by decide +kernel)⟩

/-! ## Sideband and start-up -/

def sb (st : Nat) : State := (ready.put F.cmdCfg_SB_EN 0 1).put F.cmdStatus_SB_STATE 0 st
def later (n : Nat) (s : State) : State := { s with time := { s.time with frc := n } }
def data (src dst : Nat) (c : Bool) : SbData := ⟨false, dst, src, [], true, false, c⟩

def sbOff : State := ready.put F.cmdCfg_SB_EN 0 0

theorem witness_SidebandOffRepeats : Awake sbOff ∧ sbOn sbOff = false ∧ streamOf (.sideband 5) = 65 := by decide +kernel

def low : State := let s := sb 1; { s with sys := { s.sys with devid := 9 } }
def flew : State := let s := sb 1; s.onSb fun b => { b with flying := some ⟨5, [], 1, false⟩ }
def claimed : State := later 100000000 (sb 0)

theorem witness_SidebandStationWorks :
    (Awake (sb 1) ∧ sbOn (sb 1) = true ∧ sbMonitor (sb 1) = false ∧ (sb 1).crook.sb.flying = none) ∧
    ((data 5 9 false).src ≠ low.sys.devid ∧ (data 5 9 false).dst = low.sys.devid ∧ (data 5 9 false).crcOk = true ∧
      low.crook.sb.input.length < 16) ∧
    ((data 0 5 true).src = flew.sys.devid ∧ (data 0 5 true).c = true ∧ flew.crook.sb.flying = some ⟨5, [], 1, false⟩) ∧
    8 < low.sys.devid ∧ sbMonitor (sb 2) = true ∧
    (sbMonitor (later 20000000 (sb 2)) = true ∧
      (later 20000000 (sb 2)).crook.sb.lastToken + 20000000 ≤ (later 20000000 (sb 2)).time.frc ∧
      (later 20000000 (sb 2)).crook.sb.lastIssue + 20000000 ≤ (later 20000000 (sb 2)).time.frc) ∧
    (sbState (later 50000000 (sb 1)) = 1 ∧ sbMonitor (later 50000000 (sb 2)) = true ∧
      ∀ st ∈ [1, 2], (later 50000000 (sb st)).crook.sb.lastToken + 50000000 ≤ (later 50000000 (sb st)).time.frc) ∧
    (sbState claimed = 0 ∧ claimed.crook.sb.lastClaim + 1000000 ≤ claimed.time.frc ∧
      claimed.crook.sb.claimSince + 100000000 ≤ claimed.time.frc) := by decide +kernel

theorem witness_RomChecksRun :
    Awake ready ∧ ready.get F.crookId_CHECK_STATE 0 ≠ 1 ∧ (ready.put F.crookId_CHECK_STATE 0 1).get F.crookId_CHECK_STATE 0 = 1 := by
  decide +kernel

/-- Context 0 with a return stack. -/
def stacked (n : Nat) : State := ready.setContext 0 { ready.context 0 with uaddr := 5, stack := List.replicate n 9 }

theorem witness_RomChecksRun_steps :
    bits (3 * 2 ^ 20) 22 20 = 3 ∧ bits (4 * 2 ^ 20) 22 20 = 4 ∧ ((stacked 7).context 0).uaddr ≠ 0x1FFF ∧
    ((stacked 7).context 0).stack.length < 8 ∧ 8 ≤ ((stacked 8).context 0).stack.length ∧
    ((stacked 1).context 0).stack = [9] ∧ (evalWords (instOf 0x12 0) [64] (stacked 1)).2 = false ∧
    ((stacked 0).context 0).stack = [] := by decide +kernel

/-- Both fetches of the microword invert exactly the bits that it has: each gives 0, whose parity is even. -/
theorem witness_RomChecksRun_check (s : State) : ∃ x t,
    St (rq opNop 0 0 [9]) ready ∧
    microRun ((hd (rq opNop 0 0 [9])).inCtx 0) 0 [x] s = (.check (s.context 0).uaddr none, t) := by
  have hz : microGood 0#24 = false := by decide
  have hf : ∀ w, fetched microGood w w w = (none, true) := fun w => by simp [fetched, hz]
  refine ⟨⟨Config.microword (s.context 0).uaddr, Config.microword (s.context 0).uaddr, 0, 0, false⟩, s,
    starts_of (by decide +kernel), ?_⟩
  simp only [microRun, microStep, hf]

def due : State := { ready with sys := { ready.sys with resetDue := true } }

theorem witness_ResetEnds : inReset.sys.inReset = true ∧ Awake due ∧ due.sys.resetDue = true := by decide

def loaded : State := { State.reset with sys := { sysReset with fuses := true } }
def started : State := { State.reset with sys := { sysReset with fuses := true, crookOn := true, phase := 3 } }
def tested : State := { started with sys := { started.sys with testDone := true, calDone := true, logReady := true, romDone := true } }

theorem witness_StartUpProceeds :
    (Awake State.reset ∧ State.reset.flt.fatal = false ∧ State.reset.sys.fuses = false ∧ State.reset.log.kept = false) ∧
    (let s := { State.reset with log := { State.reset.log with kept := true } }
     s.sys.fuses = false ∧ s.log.kept = true ∧ storeGood s = true) ∧
    (loaded.sys.fuses = true ∧ loaded.sys.crookOn = false) ∧
    (crookUp started = true ∧ started.sys.testDone = false ∧ started.sys.calDone = false) ∧
    (tested.sys.phase = 3 ∧ startComplete tested = true) ∧
    ((later 500000 ready).sys.phase = 4 ∧ (later 500000 ready).sys.bellSince + 500000 ≤ (later 500000 ready).time.frc) := by
  decide +kernel

def restoring : State := { started with log := { started.log with kept := false }, flash := { started.flash with state := 2 } }
def kept : State := { started with log := { started.log with kept := true } }
def perst (on : Bool) : State := { ready with sys := { ready.sys with perst := true, crookOn := on } }

theorem witness_LogAndLinkComeUp :
    (Awake restoring ∧ crookUp restoring = true ∧ restoring.log.kept = false ∧ restoring.sys.logReady = false ∧
      restoring.flash.state = 2) ∧
    (crookUp kept = true ∧ kept.log.kept = true ∧ kept.sys.logReady = false ∧
      ((logOpen kept).flt.fatal && (logOpen kept).log.holding) = false) ∧
    ready.sys.perst = false ∧ ((perst true).sys.perst = true ∧ (perst true).sys.crookOn = true) ∧
    ((perst false).sys.perst = true ∧ (perst false).sys.crookOn = false) := by decide +kernel
/-! ## Pace and temperature -/

def paced (st : Nat) : State :=
  let s := later 2000000 (ready.put F.paceStatus_STATE 0 st)
  { s with pace := { s.pace with lastSample := some 1990000, unacked := some 1900000, lastRead := 1995000, lastResend := 1000000 } }
/-- A response that acknowledges 750 mV. -/
def acked : BitVec 32 :=
  let w : Nat := 750 * 2 ^ 8
  BitVec.ofNat 32 (w + (crc3 (BitVec.ofNat 32 w)).toNat)

theorem witness_PaceLoopWorks :
    (Awake (paced 1) ∧ (∀ t, (paced 1).pace.lastSample = some t → t + 10000 ≤ (paced 1).time.frc) ∧
      (paced 1).get F.paceStatus_STATE 0 ≠ 0) ∧
    (3000 * 1000 < 3200 * (1000 + (paced 1).get F.paceControl_MARGIN 0)) ∧
    (1249 * 1000 < 1250 * (1000 + (paced 1).get F.paceControl_MARGIN 0)) ∧
    (3200 * (1000 + 2 * ready.get F.paceControl_MARGIN 0) ≤ 3392 * 1000 ∧
      1250 * (1000 + 2 * ready.get F.paceControl_MARGIN 0) ≤ 1325 * 1000) ∧
    ((paced 1).pace.unacked.isSome = true ∧ (paced 1).pace.lastRead + 5000 ≤ (paced 1).time.frc) ∧
    ((paced 1).pace.unacked = some 1900000 ∧ 1900000 + 100000 ≤ (paced 1).time.frc ∧ (paced 1).get F.paceStatus_STATE 0 ≠ 2) ∧
    ((paced 2).get F.paceStatus_STATE 0 = 2 ∧ (paced 2).pace.lastResend + 1000000 ≤ (paced 2).time.frc) ∧
    (avsAcks acked (paced 1) = true ∧ (paced 1).get F.paceStatus_STATE 0 = 1) := by
  refine ⟨⟨by decide +kernel, ?_, by decide +kernel⟩, by decide +kernel⟩
  intro t h
  have h' : some 1990000 = some t := h
  cases h'
  decide +kernel

theorem witness_TemperatureRaises : Awake ready := by decide

/-! ## The frame path -/

def up (p : Nat) : State :=
  (lanesUp [p] (ready.puts p [(F.portStatus_STATE, 2), (F.portStatus_LINK, 1)]))
def body60 : List Byte := List.replicate 60 0
def good64 : List Byte := withFcs body60
def onWire (bs : List Byte) : WireFrame := ⟨bs, false, false, false, 0, none, false, ⟨0, 0, 0, 0, []⟩⟩
def frames (s : State) (fs : List Frame) : State := { s with frames := fs, nextFrame := fs.length }
def atMac (bs : List Byte) : Frame := { blankFrame 0 with bytes := bs, maxFrame := 1522 }

theorem witness_FramesArrive :
    (PathAwake (up 1) ∧ isPipe 1 (up 1) = false ∧ hearsLoop (frontLanes 1 (up 1)) (up 1) = false ∧
      hearsLine (frontLanes 1 (up 1)) (up 1) = true ∧ macTakes 1 (onWire good64) (up 1) = true ∧
      macTakes 1023 (onWire good64) (up 1023) = true) ∧
    (let s := looped [1] 3 (up 1)
     hearsLine (frontLanes 1 s) s = true ∧ sendsFar (frontLanes 1 s) s = true) ∧
    (let s := (looped [1] 1 (up 1)).setPort 1 { portDefault with loop := [onWire good64] }
     hearsLoop (frontLanes 1 s) s = true ∧ (s.port 1).loop = [onWire good64] ∧ macTakes 1 (onWire good64) s = true) ∧
    (hearsLine (frontLanes 1 ready) ready = false ∧ hearsLoop (frontLanes 1 ready) ready = false) ∧
    (isPipe 0 (carries 2) = true ∧ channelHears 0 1 (carries 2) = false ∧ channelHears 0 1 (carries 1) = true) ∧
    (let s := (carries 1).put F.portStatus_STATE 0 2
     let w := { onWire good64 with pipe := some ⟨3, 7, 9, 0, 0, 0⟩ }
     hearsLine (frontLanes 0 s) s = true ∧ macTakes 0 w s = true) := by
  decide +kernel

/-- A PAUSE frame. -/
def pauseBytes : List Byte := withFcs (List.replicate 12 0 ++ [0x88, 0x08] ++ List.replicate 46 0)
def macOf (bs : List Byte) : State := frames (up 0) [atMac bs]

/-- A growing frame of 300 bytes in queue 0 that holds a cell of pool A. -/
def grows : Frame :=
  { blankFrame 0 with bytes := List.replicate 300 0, loc := .queue 0, qnum := 0, cells := [(0, 0)] }
def noRoom : State :=
  let s := frames (up 0) [grows]
  { s with fold := { s.fold with used := (List.range 256).map fun b => (b, List.range (blockCells 1)) } }
/-- A whole frame in transmission. -/
def leaving : Frame :=
  { blankFrame 0 with bytes := good64, loc := .tx 0 true, ended := true, sendBody := body60, fragFrc := some 0 }
/-- The growing frame in transmission. -/
def growsOut : Frame := { grows with loc := .tx 0 true }
/-- The same where the bitmap word of the next cell is uncorrectable. -/
def badMap : State :=
  let s := frames (up 0) [grows]
  { s with flt := { s.flt with upset := ((chainCell grows s).map fun x =>
      (wordRef (instOf 0x0A 257) (x.1.1 * 2 ^ 16 + x.1.2 / 64), 3)).toList } }
def grown (s : State) : Option (State × Bool) := (chainCell grows s).map fun x => mapWords [x.1] x.2

theorem witness_FramesEnd :
    (arriving 0 (macOf good64) = some (atMac good64) ∧ macCheck (atMac good64) = (0, 0) ∧
      (evalHop (instOf 0x01 0) 0 64 (seenEnd 0 (atMac good64) 0 0 (macOf good64))).2 = false ∧ isControl (atMac good64) = false) ∧
    (isControl (atMac pauseBytes) = true ∧ macCheck (atMac pauseBytes) = (0, 0)) ∧
    (evalHop (instOf 0x01 0) 0 64 (seenEnd 0 (atMac good64) 0 0
      { (macOf good64) with flt := { ready.flt with upset := [(wordRef (instOf 0x01 0) 0, 3)] } })).2 = true ∧
    (macCheck (atMac body60)).1 ≠ 0 ∧
    ((atMac (List.replicate 1523 0)).maxFrame < (List.replicate 1523 (0 : Byte)).length) ∧
    (grows.ended = false ∧ grows.sentLen = 0 ∧ grows.loc ≠ .tail ∧ grows.cells ≠ [] ∧
      chainNeed grows (truncLen grows 300) ≠ 0 ∧ (frames (up 0) [grows]).frame 0 = some grows ∧
      (grown (frames (up 0) [grows])).any (fun x => !x.2) = true ∧
      (grown badMap).any (fun x => x.2) = true ∧
      (chainCell grows noRoom).isNone = true) ∧
    (growsOut.loc = .tx 0 true ∧ (frames (up 0) [growsOut]).frame 0 = some growsOut ∧ growsOut.cells ≠ []) ∧
    ((frames (up 0) [leaving]).frame 0 = some leaving ∧ leaving.ended = true) := by
  decide +kernel

def inPen (s0 : Nat) : Frame :=
  { blankFrame 0 with bytes := good64, loc := .pen, ended := true, pen := some 0, seq := s0, raceTo := 500000 }
def atPen : State := frames (up 0) [inPen 0]

theorem witness_PensAndRaceWork :
    (windowFrame 0 (frames (up 0) [atMac (List.replicate 300 0)])).isSome = true ∧
    (windowFrame 0 (frames (up 0) [{ atMac good64 with ended := true, win := .complete 0 }])).isSome = true ∧
    windowFrame 0 (up 0) = none ∧
    ((atPen.frames.find? fun f => f.loc == .pen && f.inPort == 0 && f.seq == 0) = some (inPen 0) ∧
      atPen.isolated (instOf 0x04 0) = false ∧
      serialLt 0 (atPen.get F.racePort_HEAD_SEQ 0) = false ∧
      serialLt 0 ((atPen.put F.racePort_HEAD_SEQ 0 1).get F.racePort_HEAD_SEQ 0) = true) ∧
    ((atPen.frames.find? fun f => f.inPort == 0 && f.seq == atPen.get F.racePort_HEAD_SEQ 0 && f.kind == 0 &&
        (f.loc == .pen || f.loc == .lost)) = some (inPen 0) ∧ atPen.frc < (inPen 0).disp + (inPen 0).raceTo ∧
      (inPen 0).disp + (inPen 0).raceTo ≤ (later 1000000 atPen).frc) := by
  decide +kernel

def inQueue (q : Nat) : State :=
  frames (up 0) [{ blankFrame 0 with bytes := good64, loc := .queue q, qnum := q, ended := true, cells := [(0, 0)] }]
def inQueueBad (q : Nat) : State :=
  { inQueue q with flt := { ready.flt with upset := [(wordRef (instOf 0x0A 0) 0, 3)] } }
/-- What a MAC selects, and whether its words are good. -/
def picks (p : Nat) (s : State) (bad : Bool) : Bool :=
  let d := dropOverruns 2 p true s
  (select p true d).any fun x => (takeWords p x.1 x.2 d).2 == bad
def exporting : State :=
  let s := later 1000000 ready
  { s with telem := { s.telem with filling := [[0]], fillSince := 0 } }

theorem witness_FramesLeave :
    (PathAwake (inQueue 0) ∧ select 0 true (dropOverruns 1 0 true (up 0)) = none) ∧
    (picks 0 (inQueue 0) false = true ∧ picks 0 (inQueueBad 0) true = true) ∧
    (picks 1024 (inQueue 65536) false = true ∧ picks 1025 (inQueue 65600) false = true ∧
      picks 1027 (inQueue 65728) false = true) ∧
    (((frames (up 0) [leaving]).frames.find? fun f => f.loc == .tx 0 true) = some leaving ∧ leaving.ended = true ∧
      leaving.fragFrc = some 0 ∧ portDrives 0 (frames (up 0) [leaving]) = true ∧ portDrives 0 ready = false ∧
      leaving.sentLen = 0 ∧ (evalHop (instOf 0x01 0) 0 64 (frames (up 0) [leaving])).2 = false) ∧
    (let f := { leaving with ended := false, stomp := drOversize, sentLen := 64 }
     ((frames (up 0) [f]).frames.find? fun f => f.loc == .tx 0 true) = some f ∧ f.stomp = drOversize) ∧
    (exporting.telem.filling ≠ [] ∧
      exporting.telem.fillSince + exporting.get F.telemCfg_EXP_FLUSH 0 * 1000 ≤ exporting.time.frc) := by
  decide +kernel

def timers : State :=
  let s := (up 0).puts 0 [(F.portStatus_TX_XOFF, 8), (F.portStatus_VERIFY, 1)]
  let t := s.puts 0 [(F.portFc_FC_MODE, 2), (F.portFc_PFC_TX_MASK, 8)]
  t.setPort 0 { portDefault with
    pauses := [(3, 0)]
    fcDue := some 0
    verTries := 3
    gatePend := some (0, noGates)
    gates := { noGates with en := true } }

theorem witness_PortTimersAct :
    PathAwake timers ∧ ((∃ e ∈ (timers.port 0).pauses, e.2 ≤ timers.time.frc ∧ e.1 = 3) ∧ timers.get F.portFc_FC_MODE 0 ≠ 1) ∧
    (fcWanted 0 timers ≠ (timers.port 0).fcSent ∧ fcSends 0 timers = true ∧ timers.get F.portFc_FC_MODE 0 ≠ 0) ∧
    ((timers.port 0).fcDue = some 0 ∧ fcWanted 0 timers ≠ 0) ∧
    (timers.get F.portStatus_VERIFY 0 = 1 ∧ (timers.port 0).verDue ≤ timers.time.frc ∧ timers.on F.portStatus_LINK 0 = true ∧
      (timers.port 0).verTries = 3) ∧
    ((timers.port 0).gatePend = some (0, noGates) ∧ 0 ≤ timers.todNs) ∧ (timers.port 0).gates.en = true := by
  decide +kernel

def portIn (st : Nat) : State := later 4000000000 ((up 0).put F.portStatus_STATE 0 st)
/-- An enabled Ethernet port 1 that a lane in L0 serves, with LINK as given. -/
def enet (link : Nat) : State := (lanesUp [1] ready).puts 1 [(F.portCfg_ENABLE, 1), (F.portCfg_SPEED, 1), (F.portStatus_LINK, link)]
def pipe : State :=
  (((lanesUp (octetLanes 0) (up 0)).puts 0 [(F.portCfg_ENABLE, 1), (F.portCfg_SPEED, 1), (F.portStatus_LINK, 0)]).put F.octetCfg_MODE 0 2).put
    F.linkCfg_EN 0 1
def pipeIn : State := pipe.put F.linkStatus_IN_FRAME 0 1
def pipeLost : State := pipe.put F.portStatus_LINK 0 1

theorem witness_PortStatesFollow :
    (Awake (portIn 3) ∧ (portIn 3).get F.portStatus_STATE 0 = 3 ∧
      ((portIn 3).port 0).since + (portIn 3).get F.portCfg_DEBOUNCE 0 * 1000 ≤ (portIn 3).time.frc) ∧
    ((portIn 4).get F.portStatus_STATE 0 = 4 ∧ busyQueues 0 (portIn 4) = []) ∧
    ((portIn 5).get F.portStatus_STATE 0 = 5 ∧
      ((portIn 5).port 0).since + (portIn 5).get F.portCfg_HOLD 0 * 1000 ≤ (portIn 5).time.frc) ∧
    (portRuns 0 pipeIn = true ∧ (pipeIn.port 0).closing = false ∧ isPipe 0 pipeIn = true ∧
      pipeIn.on F.portStatus_LINK 0 = false ∧ (∀ l ∈ frontLanes 0 pipeIn, laneUp l pipeIn = true) ∧ pipeUp 0 pipeIn = true) ∧
    (portRuns 1 (enet 0) = true ∧ ((enet 0).port 1).closing = false ∧ isPipe 1 (enet 0) = false ∧
      (enet 0).on F.portStatus_LINK 1 = false ∧ (∀ l ∈ frontLanes 1 (enet 0), laneUp l (enet 0) = true) ∧
      (enet 0).get F.portCfg_SPEED 1 ≠ 0) ∧
    (portRuns 0 pipeLost = true ∧ isPipe 0 pipeLost = true ∧ pipeLost.on F.portStatus_LINK 0 = true ∧
      pipeUp 0 pipeLost = false) ∧
    (portRuns 1 (enet 1) = true ∧ isPipe 1 (enet 1) = false ∧ (enet 1).on F.portStatus_LINK 1 = true ∧
      hearsLoop (frontLanes 1 (enet 1)) (enet 1) = false) ∧
    (portIn 2).get F.portStatus_STATE 0 = 2 ∧ (portIn 1).get F.portStatus_STATE 0 = 1 := by
  decide +kernel

/-! ## Fold, tables, versions -/

def drained : State :=
  let s := ready.puts 0 [(F.carve_POOL, 2), (F.carve_LIVE_POOL, 1)]
  { s with fold := { s.fold with override := false } }
/-- An overflow entry of table 0 whose home is bucket 7, narrow, and the same where that bucket is full. -/
def overflows (busy : Bool) : State :=
  let s := em0.puts 5 [(F.emOvf_USED, 1), (F.emOvf_HOME, 7)]
  if busy then (bucketSlots 7).foldl (fun s i => s.put F.emSlot_VALID i 1) s else s

theorem witness_FoldAndShapersFollow :
    Awake ready ∧ (blockOpen 0 drained = false ∧ drained.blockUsed 0 = []) ∧ (later 64 ready).time.frc % 64 = 0 ∧
    (later 65 ready).time.frc % 64 ≠ 0 := by
  decide +kernel

def notice0 : Notice := ⟨0, 0, 0, 3, 1, 0, 0xAB, 0, 0, 0⟩
def strays (dest role : Nat) : State :=
  let s := (ready.put F.learnCfg_DEST 0 dest).put F.roleCfg_ROLE 0 role
  { s with tab := { s.tab with notices := [notice0] } }

theorem witness_LearningFollows :
    Awake (strays 0 1) ∧ (strays 0 1).tab.notices = notice0 :: [] ∧ (strays 0 1).get F.learnCfg_DEST 0 = 0 ∧
    ((strays 1 2).get F.learnCfg_DEST 0 = 1 ∧ (strays 1 2).mgmt.notice = none ∧ (strays 1 2).get F.roleCfg_ROLE 0 ≠ 1) ∧
    ((strays 1 1).get F.roleCfg_ROLE 0 = 1 ∧ (strays 1 1).mgmt.notice = none) ∧ (strays 2 1).get F.learnCfg_DEST 0 = 2 ∧
    (7 < 1310720 ∧ ovfOf 7 ready = [] ∧ ovfOf 7 (overflows false) = [5] ∧
      (ovfEntry 5 (overflows false)).any (fun e => (freeSlot 7 e.wide (overflows false)).isSome) = true ∧
      (ovfEntry 5 (overflows true)).any (fun e => (freeSlot 7 e.wide (overflows true)).isNone) = true) := by
  decide +kernel

def draining1 : State :=
  let s := later 100000000000 (ready.put F.slot_STATE 1 2)
  { s with ver := { s.ver with left := [(1, 0)] } }

theorem witness_SlotsAndContentFollow :
    Awake draining1 ∧ (draining1.get F.slot_STATE 1 = 2 ∧ draining1.get F.versionCfg_DRAIN_LIMIT 0 ≤ slotAge 1 draining1) ∧
    (2 ≤ draining1.get F.slot_STATE 1 ∧ draining1.get F.slot_HOLDERS 1 = 0) := by
  decide +kernel

/-! ## Lanes and flock links -/

/-- A state in which one lane has what is given. -/
def laneIs (l : Nat) (x : LaneSt) (s : State) : State := s.setLane l x
def moving (dst t0 : Nat) (e : Bool) : LaneSt := { laneDefault with move := some (dst, t0, e) }
def exits : State := laneIs 0 (moving 0 5 true) (later 60005 ready)

theorem witness_LanePowerMoves :
    (Awake ready ∧ ready.get F.laneCfg_LOOPBACK 0 = 0 ∧ (ready.put F.laneCfg_LOOPBACK 0 1).get F.laneCfg_LOOPBACK 0 ≠ 0) ∧
    ((exits.put F.lanePower_REQ 0 1).lane 0).move.isSome = true ∧
    (let t := (ready.puts 0 [(F.laneCfg_RATE, 3)]).put F.octetCfg_MODE 0 1 |>.put F.lanePower_REQ 0 0
     (t.lane 0).move = none ∧ laneTarget 0 t ≠ t.get F.lanePower_STATE 0) ∧
    (laneTarget 0 (ready.put F.lanePower_REQ 0 1) = (ready.put F.lanePower_REQ 0 1).get F.lanePower_STATE 0) ∧
    ((exits.lane 0).move = some (0, 5, true) ∧ 5 + 60000 ≤ exits.frc ∧ exits.get F.laneRxeq_ADAPT 0 ≠ 2 ∧
      (exits.put F.laneRxeq_ADAPT 0 2).get F.laneRxeq_ADAPT 0 = 2 ∧ (later 60004 exits).frc < 5 + 60000) ∧
    ((laneIs 0 (moving 0 5 false) ready).lane 0).move = some (0, 5, false) ∧
    ((laneIs 0 (moving 2 5 false) ready).lane 0).move = some (2, 5, false) ∧ (ready.lane 1023).move = none := by
  decide +kernel

def trains : State := (ready.put F.octetCfg_MODE 0 1).puts 0 [(F.laneTxeq_TRAIN_EN, 1), (F.lanePower_STATE, 0)]
/-- The taps that a lane has, in the word of LANE_TXEQ. -/
def keptTaps : Word := (trains.obj .laneTxeq 0).extractLsb' 0 64
def taps (pre2 pre1 main post : Nat) : Word :=
  ([(F.laneTxeq_PRE2, pre2), (F.laneTxeq_PRE1, pre1), (F.laneTxeq_MAIN, main), (F.laneTxeq_POST1, post)].foldl
    (fun v e => fldSet v e.1 e.2) (0 : ObjVal)).extractLsb' 0 64
def checks : State := ready.puts 0 [(F.prbsCtrl_RX_PATTERN, 2), (F.prbsCount_LOCK, 1)]

theorem witness_LanesAdaptAndCheck :
    Awake ready ∧ 63 < tapSum ((taps 0 1 63 0).zeroExtend 512) ∧ tapSum ((taps 0 0 63 0).zeroExtend 512) ≤ 63 ∧
    (training 0 trains = true ∧ tapSum (keptTaps.zeroExtend 512) ≤ 63 ∧
      (∀ f ∈ [F.laneTxeq_PRE3, F.laneTxeq_PRE2, F.laneTxeq_PRE1, F.laneTxeq_MAIN, F.laneTxeq_POST1],
        fldGet (keptTaps.zeroExtend 512) f = trains.get f 0) ∧
      fldGet ((taps 0 0 63 0).zeroExtend 512) F.laneTxeq_MAIN ≠ trains.get F.laneTxeq_MAIN 0) ∧
    training 0 ready = false ∧ (0 : BitVec 2) ≠ 3 ∧ ready.get F.prbsCtrl_RX_PATTERN 0 = 0 ∧
    (checks.get F.prbsCtrl_RX_PATTERN 0 ≠ 0 ∧ checks.on F.prbsCount_LOCK 0 = true ∧ 512 < 513) ∧
    ((checks.put F.prbsCount_LOCK 0 0).get F.prbsCtrl_RX_PATTERN 0 ≠ 0 ∧
      (checks.put F.prbsCount_LOCK 0 0).on F.prbsCount_LOCK 0 = false) := by
  decide +kernel

def flockOctet : State := lanesUp (octetLanes 0) (ready.put F.octetCfg_MODE 0 2)
def locks : State := laneIs 0 { laneDefault with good := 1 } flockOctet

theorem witness_FlockLanesRun :
    Awake ready ∧ laneMode 0 ready ≠ 2 ∧ (laneMode 7 flockOctet = 2 ∧ laneUp 7 flockOctet = true) ∧
    (sendsLine [0] flockOctet = true ∧ sendsLine [0] (looped [0] 3 flockOctet) = false) ∧ (flockOctet.lane 0).ovr = false ∧
    ((laneIs 0 { laneDefault with ovr := true } flockOctet).lane 0).ovr = true ∧ (flockOctet.lane 0).good = 0 ∧
    (laneMode 0 locks = 2 ∧ laneUp 0 locks = true ∧ locks.on F.laneStatus_AM_LOCK 0 = false ∧ (locks.lane 0).good ≠ 0 ∧
      (locks.lane 0).amSeen = false ∧ ((laneIs 0 { laneDefault with good := 1, amSeen := true } locks).lane 0).amSeen = true) ∧
    (locks.put F.laneStatus_AM_LOCK 0 1).on F.laneStatus_AM_LOCK 0 = true ∧
    (flockOctet.lane 0).bad < 3 ∧ 3 ≤ ((laneIs 0 { laneDefault with bad := 3 } flockOctet).lane 0).bad := by
  decide +kernel

def linkIs (inFrame : Nat) (x : LinkSt) : State :=
  let s := (lanesUp (octetLanes 0) (ready.put F.octetCfg_MODE 0 2)).put F.linkCfg_EN 0 1
  (s.put F.linkStatus_IN_FRAME 0 inFrame).setLink 0 x
def faw : BitVec 128 := BitVec.ofNat 128 (0xD2E14B3C * 2 ^ 96)
def hunts : State := linkIs 0 { linkDefault with cands := [(77, 255, 2)] }
def framed : State := linkIs 1 { linkDefault with next := 77 }
/-- An octet in near-end loopback that has sent one superframe. -/
def echoes : State :=
  looped (octetLanes 0) 1 (linkIs 0 { linkDefault with loop := [⟨faw, ⟨[], []⟩⟩] })

theorem witness_FlockLinksRun :
    Awake ready ∧ framerRuns 0 ready = false ∧
    (framerRuns 0 (linkIs 0 linkDefault) = true ∧ (linkIs 0 linkDefault).on F.linkStatus_SWITCH_PENDING 0 = false) ∧
    octetDelivers 0 ((linkIs 0 linkDefault).put F.laneStatus_DESKEW_FAIL 3 1) = false ∧
    hearsLine (octetLanes 0) ready = false ∧
    (framerRuns 0 echoes = true ∧ octetDelivers 0 echoes = true ∧ hearsLoop (octetLanes 0) echoes = true ∧
      (echoes.link 0).loop = [⟨faw, ⟨[], []⟩⟩]) ∧
    (framerRuns 0 hunts = true ∧ octetDelivers 0 hunts = true ∧ hearsLoop (octetLanes 0) hunts = false ∧
      hearsLine (octetLanes 0) hunts = true ∧ hunts.on F.linkStatus_IN_FRAME 0 = false ∧ isFaw true faw = true ∧
      ∃ k ∈ (hunts.link 0).cands, k.1 = 77 ∧ mfcOf faw = (k.2.1 + 1) % 256 ∧ 2 ≤ k.2.2) ∧
    ((linkIs 0 linkDefault).link 0).cands = [] ∧
    (framerRuns 0 framed = true ∧ octetDelivers 0 framed = true ∧ hearsLoop (octetLanes 0) framed = false ∧
      hearsLine (octetLanes 0) framed = true ∧ framed.on F.linkStatus_IN_FRAME 0 = true ∧ 77 = (framed.link 0).next ∧
      isFaw false faw = false) := by
  decide +kernel

def switching (announce : Bool) : State :=
  (linkIs 1 { linkDefault with announce, txMfc := 0 }).put F.linkStatus_SWITCH_PENDING 0 1
def voting : State := linkIs 1 { linkDefault with base := 255, votes := [true, true, true, false] }

theorem witness_LinkDefectsAndPagesFollow :
    Awake ready ∧
    (framerRuns 0 (later 2000 (linkIs 0 linkDefault)) = true ∧
      (∀ d < 2, present 0 d (later 2000 (linkIs 0 linkDefault)) = false) ∧
      criterion 0 0 true (later 1000 (linkIs 0 linkDefault)) = true ∧
      criterion 0 1 true (later 2000 (linkIs 0 linkDefault)) = true) ∧
    (let s := (later 10000 (linkIs 0 { linkDefault with lanesGood := true })).put (rawFld 0) 0 1
     framerRuns 0 s = true ∧ present 0 0 s = true ∧ criterion 0 0 false s = true) ∧
    (framerRuns 0 (linkIs 1 { linkDefault with due := [(4, true)] }) = true ∧
      present 0 4 (linkIs 1 { linkDefault with due := [(4, true)] }) = false ∧
      criterion 0 4 true (linkIs 1 { linkDefault with due := [(4, true)] }) = true) ∧
    (let s := (linkIs 1 { linkDefault with due := [(4, false)] }).put (rawFld 4) 0 1
     framerRuns 0 s = true ∧ present 0 4 s = true ∧ criterion 0 4 false s = true) ∧
    (ready.on F.linkStatus_SWITCH_PENDING 127 = false ∧ standbyBad 127 ready = false) ∧
    ((switching true).on F.linkStatus_SWITCH_PENDING 0 = true ∧ ((switching true).link 0).announce = true ∧
      ((switching true).link 0).txMfc = 0) ∧
    ((voting.link 0).base = 255 ∧ votedPage (voting.link 0).votes = some 1 ∧ 1 ≠ voting.get F.linkStatus_RX_PAGE 0) := by
  decide +kernel

/-! ## Time and host port -/

def tracks : State := later (10 ^ 12) (ready.put F.timeStatus_STATE 0 1)
def fromHost : State := ready.put F.timeCfg_SRC 0 0

theorem witness_TimeIsSetAndServed :
    Awake fromHost ∧ 999999999 < (1000000000 : BitVec 32).toNat ∧ (999999999 : BitVec 32).toNat ≤ 999999999 ∧
    fromHost.get F.timeCfg_SRC 0 = 0 ∧ (ready.put F.timeCfg_SRC 0 2).get F.timeCfg_SRC 0 ≠ 0 ∧
    (let t := fromHost.put F.timeCfg_STEP_THRESH 0 1
     t.get F.timeCfg_STEP_THRESH 0 ≠ 0 ∧ t.get F.timeCfg_STEP_THRESH 0 * 65536 ≤ (65536 : BitVec 64).toInt.natAbs ∧
       (65535 : BitVec 64).toInt.natAbs < t.get F.timeCfg_STEP_THRESH 0 * 65536) ∧
    (tracks.get F.timeStatus_STATE 0 = 1 ∧ tracks.time.lastSample + tracks.get F.timeCfg_SAMPLE_TIMEOUT 0 * 10 ^ 6 ≤ tracks.frc) ∧
    ready.get F.timeStatus_STATE 0 ≠ 1 ∧ ready.time.trefLost = false := by
  decide +kernel

def edges (last : Option Nat) : State :=
  let s := later 500000001 (ready.put F.pps_EN 0 1)
  { s with time := { s.time with lastPps := last } }
def tout (x : ToutSt) : State := later 10 ((ready.put F.tout_EN 7 1).setTout 7 x)
def records (up : Nat) : State := (carries 3).put F.flockTime_UPSTREAM 0 up
/-- Octet 0 is the upstream of a device that follows it, and has sent stamp 7. -/
def follows : State :=
  ((records 0).put F.timeCfg_SRC 0 2).setTimeLink 0 { sent := [(7, 0)], nextSeq := 8, last := none }
/-- A time record that answers stamp 7. -/
def answer7 : BitVec 256 := BitVec.ofNat 256 (7 * 2 ^ 224 + 3 * 2 ^ 14)

theorem witness_EdgesAndStampsFollow :
    Awake (edges none) ∧ ready.on F.pps_EN 0 = false ∧
    ((edges none).on F.pps_EN 0 = true ∧ (edges none).on F.pps_EDGE 0 = false ∧ (edges none).time.lastPps = none) ∧
    ((edges (some 2)).time.lastPps = some 2 ∧ (edges (some 2)).frc < 2 + 500000000) ∧
    ((edges (some 1)).time.lastPps = some 1 ∧ 1 + 500000000 ≤ (edges (some 1)).frc) ∧
    (let s := tout ⟨some 0, none, false⟩
     (s.toutSt 7).next = some 0 ∧ (s.toutSt 7).pulse = none ∧ s.on F.tout_EN 7 = true ∧ 0 ≤ s.todNs) ∧
    (let s := tout ⟨some 1, none, false⟩
     (s.toutSt 7).next = some 1 ∧ s.todNs < 1) ∧
    (((tout ⟨none, some (10, true), true⟩).toutSt 7).pulse = some (10, true) ∧ 10 ≤ (tout ⟨none, some (10, true), true⟩).frc) ∧
    ((tout ⟨none, some (11, true), true⟩).frc < 11) ∧
    (ready.time.lastRecord = none ∧
      (let s : State := { ready with time := { ready.time with lastRecord := some 0 } }
       s.frc < 0 + s.get F.flockTime_SYNC_INTERVAL 0 * 1000 ∧
         0 + s.get F.flockTime_SYNC_INTERVAL 0 * 1000 ≤ (later 1000000000 s).frc)) ∧
    (channelHears 0 3 ready = false ∧ hearsLoop (octetLanes 0) ready = false) ∧
    (channelHears 0 3 (records 5) = true ∧ hearsLoop (octetLanes 0) (records 5) = false ∧
      hearsLine (octetLanes 0) (records 5) = true ∧ (records 5).get F.flockTime_UPSTREAM 0 ≠ 0) ∧
    (channelHears 0 3 (records 0) = true ∧ (records 0).get F.flockTime_UPSTREAM 0 = 0 ∧
      (records 0).get F.timeCfg_SRC 0 ≠ 2) ∧
    (channelHears 0 3 follows = true ∧ hearsLine (octetLanes 0) follows = true ∧ follows.get F.flockTime_UPSTREAM 0 = 0 ∧
      follows.get F.timeCfg_SRC 0 = 2 ∧ bit answer7.toNat 15 = true ∧ bit answer7.toNat 14 = true ∧
      (follows.timeLink 0).sent.find? (fun x => x.1 == bits answer7.toNat 239 224) = some (7, 0)) := by
  decide +kernel

/-- Rings 0 enabled, with eight descriptors from TAIL on. -/
def ringed : State :=
  (ready.puts 0 [(F.rxRing_EN, 1), (F.rxRing_TAIL, 8)]).puts 0 [(F.txRing_EN, 1), (F.txRing_TAIL, 8), (F.txRing_BASE, 4096)]
/-- The same with one frame of 60 bytes in the first descriptor: FIRST and LAST, not direct. -/
def offered : State :=
  (ringed.setHostBytes 4096 (leBytes 65536 ++ leBytes (BitVec.ofNat 64 (60 * 2 ^ 50 + 3 * 2 ^ 48)))).put F.txRing_TAIL 0 1
def noLink : State := ready.put F.hostStatus_LINK_GEN 0 0
def withPerst : State := { ready with sys := { ready.sys with perst := true } }

theorem witness_RingsAreDriven :
    Awake ready ∧ pcieUp ready = true ∧ pcieUp noLink = false ∧ ready.on F.rxRing_EN 256 = false ∧ ready.on F.txRing_EN 255 = false ∧
    ready.sys.perst = false ∧ withPerst.sys.perst = true ∧
    (ringed.on F.rxRing_EN 0 = true ∧ waitingFrame 0 ringed = none ∧ ringed.host.fill.find? (·.1 == 0) = none) ∧
    (ringed.on F.txRing_EN 0 = true ∧ ringAvail true 0 ringed ≠ 0 ∧ txNext 0 ringed = none ∧ pcieUp ringed = true) ∧
    (txNext 0 offered).isSome = true ∧ ringAvail true 0 ready = 0 := by
  decide +kernel

def hostFrame (t : Nat) : Frame :=
  { blankFrame 0 with bytes := good64, loc := .hostWait 0 t, ended := true, sendBody := body60 }
def awaiting (s : State) : State := { frames (later 100000000 s) [hostFrame 0] with }

theorem witness_HostFramesMove :
    PathAwake ringed ∧
    (waitingFrame 0 (awaiting ringed) = some (hostFrame 0, 0) ∧ (awaiting ringed).on F.rxRing_EN 0 = true ∧
      pcieUp (awaiting ringed) = true ∧ descNeed 0 (hostFrame 0).sendBody.length (awaiting ringed) ≤ ringAvail false 0 (awaiting ringed) ∧
      (evalHop (instOf 0x0F 0) 0 (hostFrame 0).sendBody.length (awaiting ringed)).2 = false) ∧
    (waitingFrame 0 (awaiting ready) = some (hostFrame 0, 0) ∧
      0 + (awaiting ready).get F.rxRing_HOLD 0 * 1000 ≤ (awaiting ready).frc ∧
      ringAvail false 0 (awaiting ready) < descNeed 0 (hostFrame 0).sendBody.length (awaiting ready)) ∧
    (pcieUp offered = true ∧ txRingNext offered = some 0 ∧ txNext 0 offered = some (1, false) ∧
      (txBytes 0 1 offered).length = 60) ∧ pcieUp noLink = false ∧
    ready.tab.notices = [] ∧
    (offered.on F.txRing_EN 0 = true ∧ txNext 0 (dmaError 1 256 0 offered) = some (1, false) ∧
      txNext 0 (dmaError 1 256 0 ringed) = none ∧ (dmaError 1 256 0 ready).on F.txRing_EN 0 = false) ∧
    ((dmaError 0 0 0 (holding rqDma ready)).crook.held.find? (accesses 0 8192) = some (hd rqDma)) := by
  decide +kernel

/-- The drove always has a credit where no frame of its port waits, whatever their number is. -/
theorem witness_HostFramesMove_credit : droveCredit 1024 ready = true := by
  have h : (ready.frames.filter fun f => f.loc == .mac && f.inPort == 1024) = [] := rfl
  simp [droveCredit, h]

def vec (count pending : Nat) (masked : Bool) : State :=
  let s := later 1000 (ready.puts 0 [(F.vector_COUNT, count), (F.vector_PENDING, pending)])
  s.setMsix 0 ⟨0x1000, 7, masked⟩

theorem witness_VectorsSend :
    Awake ready ∧ 0 < Cls.vector.row.count ∧ (ready.msix 0).masked = true ∧ pcieUp ready = true ∧ pcieUp noLink = false ∧
    (((vec 3 3 false).msix 0).masked = false ∧ (vec 3 3 false).get F.vector_COUNT 0 ≤ (vec 3 3 false).get F.vector_PENDING 0) ∧
    (let s := (vec 3 1 false).put F.vector_HOLDOFF 0 4
     (s.msix 0).masked = false ∧ s.get F.vector_PENDING 0 ≠ 0 ∧
       lookD 0 s.host.oldest 0 + s.get F.vector_HOLDOFF 0 * 250 ≤ s.frc) ∧
    (let s := (vec 3 1 false).put F.vector_HOLDOFF 0 5
     ¬ s.get F.vector_COUNT 0 ≤ s.get F.vector_PENDING 0 ∧
       ¬ lookD 0 s.host.oldest 0 + s.get F.vector_HOLDOFF 0 * 250 ≤ s.frc) := by
  decide +kernel

/-! ## Muster, flock management, faults, recorder -/

def musters (dest pages : Nat) : State :=
  ((ready.puts 0 [(F.musterCfg_EN, 1), (F.musterCfg_DEST, dest), (F.musterCfg_NBUF, 2)]).put F.musterBuf_PAGES 1 pages).put F.musterBuf_ADDR 1 8192
def dump0 (addr : Option Nat) (resend : Option Nat) : Dump := ⟨1, [7], 0, 0, 0, addr, [], 0, none, resend⟩
def dumping (d : Dump) : State := { ready with muster := { ready.muster with dump := some d } }

theorem witness_MusterDumps :
    Awake ready ∧ ready.on F.musterCfg_EN 0 = false ∧
    ((musters 0 1).on F.musterCfg_EN 0 = true ∧ (musters 0 1).flt.fatal = false ∧
      (musters 0 1).muster.nextTick ≤ (musters 0 1).frc) ∧
    dumpTarget (musters 0 0) = none ∧ dumpTarget (musters 0 1) = some (some 8192) ∧ dumpTarget (musters 1 0) = some none ∧
    ((dumping (dump0 (some 8192) none)).muster.dump = some (dump0 (some 8192) none) ∧
      (dump0 (some 8192) none).addr = some 8192) ∧
    ((dump0 none (some 0)).resend = some 0 ∧ 0 ≤ (dumping (dump0 none (some 0))).frc) ∧
    ((dump0 none (some 1)).resend = some 1 ∧ (dumping (dump0 none (some 1))).frc < 1) := by
  decide +kernel

/-- A shepherd that challenges, with a route to device 9 and what is given of that device. -/
def tends (st : Nat) (x : MemberSt) : State :=
  let s := ({ shep with mgmt := { shep.mgmt with committed := true } } : State).puts 9 [(F.memberDev_STATE, st)]
  (s.puts 9 [(F.route_VALID, 1)]).setMemberSt 9 x
def newcomer : MemberSt := shep.memberSt 9
def asked (misses : Nat) : MemberSt := { newcomer with op := some (.challenge 3 0), misses }
/-- A reply of device 9 with SERIAL 1, and the manifest that has it. -/
def replyWords : List Word := [0, 1] ++ List.replicate 22 0
def manifested (st : Nat) : State :=
  (tends st (asked 0)).puts 9 [(F.manifest_VALID, 1), (F.manifest_SERIAL, 1), (F.manifest_KEY_FP, fingerprint (replyKey replyWords))]

/-- A reply with SERIAL 0 gives a cause, whether it is signed or not; one that the manifest knows gives none if its signature
verifies, which is the device's own (Config.verify). -/
theorem witness_ShepherdAdmits :
    (Awake (tends 0 newcomer) ∧ challenges (tends 0 newcomer) = true ∧ 9 ≠ (tends 0 newcomer).sys.devid ∧
      (routeOf 9 (tends 0 newcomer)).isSome = true ∧ ((tends 0 newcomer).memberSt 9).op = none ∧
      checkDue 9 (tends 0 newcomer) = true) ∧
    challenges ready = false ∧
    (((tends 1 (asked 0)).memberSt 9).op = some (.challenge 3 0) ∧ replyCause 9 3 replyWords (tends 1 (asked 0)) ≠ 0) ∧
    (replySigned 3 replyWords = true → replyCause 9 3 replyWords (manifested 1) = 0 ∧
      replyCause 9 3 replyWords (manifested 2) = 0) ∧
    (memberState 9 (manifested 1) ≠ 2 ∧ memberState 9 (manifested 2) = 2 ∧
      (replyWords.getD 2 0).toNat = (manifested 2).get F.memberDev_BOOT_NONCE 9) ∧
    (0 ≤ (tends 2 (asked 1)).frc ∧ memberState 9 (tends 2 (asked 1)) = 2 ∧ ((tends 2 (asked 1)).memberSt 9).misses < 2) ∧
    (memberState 9 (tends 2 (asked 2)) = 2 ∧ 2 ≤ ((tends 2 (asked 2)).memberSt 9).misses) ∧
    (memberState 9 (tends 1 (asked 0)) = 1 ∧ memberState 9 (tends 3 (asked 0)) ≠ 1 ∧ memberState 9 (tends 3 (asked 0)) ≠ 2) ∧
    (let s : State := { shep with mgmt := { shep.mgmt with notice := some (notice0, 0) } }
     s.mgmt.notice = some (notice0, 0) ∧ 0 ≤ s.frc) := by
  refine ⟨by decide +kernel, by decide +kernel, ⟨by decide +kernel, ?_⟩, ?_, by decide +kernel⟩
  · have hv : (tends 1 (asked 0)).on F.manifest_VALID 9 = false := by decide +kernel
    unfold replyCause
    rw [hv]
    split <;> decide
  · intro hs
    have h : ∀ st ∈ [1, 2], (manifested st).on F.manifest_VALID 9 = true ∧
        replySerial replyWords = (manifested st).get F.manifest_SERIAL 9 ∧
        fingerprint (replyKey replyWords) = (manifested st).get F.manifest_KEY_FP 9 ∧ memberState 9 (manifested st) ≠ 3 := by
      decide +kernel
    have hc : ∀ st ∈ [1, 2], replyCause 9 3 replyWords (manifested st) = 0 := by
      intro st hm
      obtain ⟨h1, h2, h3, h4⟩ := h st hm
      unfold replyCause
      rw [hs, h1, ← h2, ← h3]
      simp [h4]
    exact ⟨hc 1 (by decide), hc 2 (by decide)⟩

/-- The escalation window of source 1 that runs out at t, over one instance of the mark. -/
def window (act t : Nat) : State :=
  let s := ready.puts 1 [(F.srcStatus_PENDING, 1)] |>.put F.srcCfg_ACTION 1 act
  { s with flt := { s.flt with timers := [(1, t)], insts := [(1, [instOf 0x03 0])] } }
def subsiding : State :=
  ((ready.put F.srcStatus_PENDING 0x0C 1).put F.srcCfg_TRANSIENT_OK 0x0C 1).put F.srcStatus_LIVE 0x0C 0
/-- The action of an escalation of source 1 that a ninth instance has made is due. -/
def dueIs (act : Nat) : State := { ready with flt := { ready.flt with due := [⟨1, act, [instOf 0x03 0]⟩] } }

theorem witness_EscalationAndRecordsEnd :
    Awake ready ∧
    (∀ act, act < 4 → (∀ d ∈ (window act 0).flt.due, d.src ≠ 1) ∧
      (∃ e ∈ (window act 0).flt.timers, e.1 = 1 ∧ e.2 ≤ (window act 0).frc) ∧
      (window act 0).on F.srcStatus_PENDING 1 = true ∧ (window act 0).get F.srcCfg_ACTION 1 = act) ∧
    ((window 0 9).flt.timers = [(1, 9)] ∧ (window 0 9).frc < 9) ∧
    (∀ act, act < 2 → ((dueIs act).on F.srcStatus_PENDING 1 = false ∧
      (dueIs act).flt.due = [⟨1, act, [instOf 0x03 0]⟩])) ∧
    (srcLevel 0x0C = true ∧ subsiding.on F.srcCfg_TRANSIENT_OK 0x0C = true ∧ subsiding.on F.srcStatus_LIVE 0x0C = false ∧
      subsiding.on F.srcStatus_PENDING 0x0C = true) ∧ srcLevel 1 = false := by
  decide +kernel

def flashIs (f : FlashSt → FlashSt) : State := { ready with flash := f { ready.flash with state := 1 } }
def fullBlock : FBlock := { freeBlock ready with state := 1, logId := ready.log.logId, refresh := true }
/-- The flash holds no free block: the copies of a record in block 3 find no room. -/
def crowded : State :=
  let pages := [recordPage (logged.log.recs.map (·.r))]
  let s := flashIs fun f => { f with nblocks := 1, blocks := [(0, { fullBlock with pages })] }
  { s with log := logged.log }

theorem witness_FlashWorks :
    (Awake ready ∧ ready.flash.prog = none) ∧
    (let s := flashIs fun f => { f with prog := some (3, []) }
     s.flash.prog = some (3, []) ∧ 3 < s.flash.nblocks ∧ (s.block 3).state ≠ 3 ∧ s.flash.state = 1 ∧
       (addPage 3 [] { s with flash := { s.flash with prog := none } }).log.clears = []) ∧
    (let s := { (flashIs fun f => { f with prog := some (3, []) }) with
       log := { ready.log with clears := [4] } }
     (addPage 3 [] { s with flash := { s.flash with prog := none } }).log.clears ≠ [] ∧
       (addPage 3 [] { s with flash := { s.flash with prog := none } }).log.cleared = false) ∧
    (let s := flashIs id
     1023 < s.flash.nblocks ∧ (s.block 1023).state = 0 ∧ s.flash.state = 1 ∧ mayProgram s = true ∧ compactBlock s = none) ∧
    (let s := flashIs fun f => { f with blocks := [(3, fullBlock)] }
     mayProgram s = true ∧ compactBlock s = some 3 ∧
       (copyPages ((latestIn 3 s).length + 1) 3 (latestIn 3 s) s).1 = []) ∧
    (mayProgram crowded = true ∧ compactBlock crowded = some 0 ∧
      (copyPages ((latestIn 0 crowded).length + 1) 0 (latestIn 0 crowded) crowded).1 ≠ []) ∧
    mayProgram ready = false ∧
    ((flashIs id).flash.state = 1 ∧ (flashIs id).sys.logReady = true ∧ (flashIs id).flash.lastPatrol = none ∧
      ready.flash.state ≠ 1) ∧
    (let s := (flashIs fun f => { f with nblocks := 20 }).put F.flashCfg_EN 0 1
     s.flash.state ≠ 3 ∧ s.on F.flashCfg_EN 0 = true ∧ geometryOk s = false ∧ goodBlocks s < 32) ∧
    (flashIs fun f => { f with state := 3 }).flash.state = 3 := by
  decide +kernel

/-! ## The whole machine -/

def badPens : State := ready.putSt F.paceControl_VCORE_MIN 0 679

theorem witness_PensCommitIsChecked :
    St (rq opCommit (0x04 * 2 ^ 40) 0 []) badPens ∧ unitsOf' (rq opCommit (0x04 * 2 ^ 40) 0 []).pkt = some ([0x04], false) ∧
    ¬680 ≤ (atAcceptance [] (bg (rq opCommit (0x04 * 2 ^ 40) 0 []) badPens)).getSt F.paceControl_VCORE_MIN 0 :=
  ⟨starts_of (by decide +kernel), by decide +kernel, by decide +kernel⟩

def selects : State := (ready.puts 1 [(F.selCtrl_VALID, 1), (F.selCtrl_SHAPE, 9)]).puts 2 [(F.selCtrl_VALID, 1), (F.selCtrl_SHAPE, 8)]

theorem witness_LowestMatchChoosesTheShape :
    (selects.get F.selCtrl_VALID 1 = 1 ∧ selWords .selMask 1 selects = 0 ∧ ready.get F.selCtrl_VALID 0 = 0) ∧
    selectShape 5 selects = 9 ∧ selectShape 5 ready = 0 := by
  decide +kernel

theorem witness_FatalStopsTheDevice :
    dead.flt.fatal = true ∧ Sys2Proof.Machine.Instr.framePath (.penComplete 1025 65535) = true ∧
    (∀ e ∈ (Instr.penComplete 1025 65535).elements, e.1 < e.2) ∧
    (denied (hd (rq opNop 0 0 [])) dead = false ∧ badParam (hd (rq opNop 0 0 [])) dead = false ∧
      dead.get F.identStatus_STATE 0 ≠ 2 ∧ opNop ∉ [opRead, opReadDma, opGetInfo, opRecorderRead, opFaultAck, opDeviceReset]) ∧
    (denied (hd (rq opGetInfo 0 0 [])) dead = false ∧ badParam (hd (rq opGetInfo 0 0 [])) dead = false) := by
  decide +kernel

/-- ASEQ 1, 70, 7, 70 and 6: the window of 64 below 70 still takes 7, not 6, and 70 once. -/
theorem witness_ReplayWindowAcceptsOnce :
    ((windowTake windowReset 1).bind fun a => (windowTake a 70).bind fun b => (windowTake b 7).map fun c =>
      (c.high, (windowTake c 70).isSome, (windowTake c 7).isSome, (windowTake c 6).isSome)) = some (70, false, false, false) := by
  decide +kernel

/-- Two commands of station 5: the first without a flag, the second with FENCE. -/
def earlier : Held := { hd (rq opNop 0 0 [4]) with n := 1 }
def fenced : State :=
  let s := holding (rqF 1 opNop 0 0 []) ready
  { s with crook := { s.crook with held := earlier :: s.crook.held } }
def broken : State :=
  let s := holding (rqF 1 opNop 0 0 []) ready
  { s with crook := { s.crook with failed := [(65, 1)] } }

theorem witness_FencesOrderStreams :
    (waiting (rqF 1 opNop 0 0 []) fenced = some (hd (rqF 1 opNop 0 0 [])) ∧
      earlier ∈ fenced.crook.held ∧ fences (rqF 1 opNop 0 0 []).pkt = true) ∧
    (waiting (rqF 1 opNop 0 0 []) broken = some (hd (rqF 1 opNop 0 0 [])) ∧ crookUp broken = true ∧
      freeContext broken = some 0 ∧ mayStart' (hd (rqF 1 opNop 0 0 [])) broken = true ∧
      admitWaits (rqF 1 opNop 0 0 []).pkt broken = false ∧
      verdict ((hd (rqF 1 opNop 0 0 [])).inCtx 0) (begun (hd (rqF 1 opNop 0 0 [])) 0 broken) = none ∧
      lacksRoom ((hd (rqF 1 opNop 0 0 [])).inCtx 0) (begun (hd (rqF 1 opNop 0 0 [])) 0 broken) = none ∧
      (∃ x ∈ broken.crook.failed, x.1 = streamOf (rqF 1 opNop 0 0 []).chan ∧ x.2 < 3)) := by
  decide +kernel

theorem witness_StoresReadBack : (2 ^ 32 - 1 < 2 ^ 32 ∧ ([1, 2] : List Byte).length ≤ 2 ^ 64) ∧ Canonical State.reset ∧
    (2 ^ 64 - 1 + 1) % 2 ^ 64 ≠ 1 % 2 ^ 64 := by decide


/-! ## The manual's worked examples -/

/-- Numbers of the example under Table SC-4: queue 2 of port 517, lane position 5 of octet LO64, and W0 in host memory. -/
theorem test_numbers : 517 * 64 + 2 = (33090 : Nat) ∧ laneInst (64 * 8 + 5) = instOf 0x02 517 ∧
    (leBytes 33090).take 2 = [0x42, 0x81] := by decide

/-- The places of the example of chapter 5: its hash gives bucket 799,886, and its entries have those hit bits (R121, R129). -/
theorem test_em_home :
    (0x9C3A51E7 * 1310720 / 2 ^ 32 : Nat) = 799886 ∧ emBank 799886 = 142 ∧ 799886 / 1024 = 781 ∧
    hitPlace (.home 3199546) = (49992, 58) ∧ hitPlace (.ovf 452) = (81927, 4) ∧ 3199546 ∈ bucketSlots 799886 := by
  decide +kernel

/-- The COMMIT example of chapter 12: lanes 300 and 301 go to 212.5 Gb/s and port 300 to 400GbE. -/
def moved : State :=
  let s := ready.put F.octetCfg_MODE 37 1 |>.putSt F.octetCfg_MODE 37 1
  let s := s.put F.laneCfg_RATE 300 4 |>.put F.laneCfg_RATE 301 4 |>.putSt F.laneCfg_RATE 300 5 |>.putSt F.laneCfg_RATE 301 5
  let s := (s.putSt F.portCfg_SPEED 300 6).putSt F.portCfg_NLANES 300 1
  (s.putSt F.portCfg_FEC 300 2).putSt F.portCfg_ENABLE 300 1

theorem test_commit_plain :
    (multiAnswer (runParts (commitPart false []) [1, 2] moved).1) = (stPartial, [0x0000000400000002, 0x0007000000000000, 0, 0]) := by
  decide +kernel

theorem test_commit_atomic :
    unitOk 1 [1, 2] moved = true ∧ unitOk 2 [1, 2] moved = true ∧
    (multiAnswer (runParts (commitPart true []) [1, 2] moved).1).1 = stOk ∧
    (multiAnswer (runParts (commitPart true []) [1, 2] moved).1).2.head? = some 0x0000000600000000 := by
  decide +kernel

/-- The header of the same example: its first twelve bytes. -/
theorem test_header_bytes :
    ((headerBytes (request2 opCommit 0 0x105 0 0 0 0 [6])).take 12) =
      [0x20, 0, 0x20, 0, 0, 0, 0, 1, 5, 0, 0, 0x20] := by decide +kernel

/-- Ring 9 of the example of chapter 13: a frame of 5,000 bytes takes three buffers of 16 units. -/
theorem test_ring_descriptors : descNeed 9 5000 (ready.put F.rxRing_BUF_UNITS 9 16) = 3 := by decide +kernel

/-- The XOFF levels of the example of chapter 7 (R185). -/
def quota : State := ready.puts 4139 [(F.reqQuota_XOFF_WM, 16000), (F.reqQuota_XON_WM, 14000), (F.reqQuota_LIMIT, 12000)]
theorem test_xoff_levels : onLevel 4139 quota = 12000 ∧ offLevel 4139 quota = 10000 := by decide +kernel

/-- The time example of chapter 10: octet 96, ASYM 2.5 ns, and the stamps t1 to t4. -/
def worker : State :=
  let s := ready.puts 0 [(F.timeCfg_SRC, 2), (F.timeCfg_KP, 0xC800), (F.timeCfg_KI, 0x0A00), (F.timeCfg_STEP_THRESH, 1000),
    (F.timeCfg_FREQ_LIMIT, 100000)]
  let s := s.puts 0 [(F.flockTime_UPSTREAM, 96), (F.flockTime_ASYM, 163840)]
  let s : State := { s with time := { s.time with integ := 12 * 2 ^ 24, tod := (250000652 * 2 + 1) * (2 ^ 23 * 10 ^ 9) } }
  s.setTimeLink 96 { sent := [(7, 250004000 * 65536)], nextSeq := 8, last := none }
def record : BitVec 256 :=
  BitVec.ofNat 256 (3 * 2 ^ 240 + 7 * 2 ^ 224 + stampBits (250000000 * 65536) * 2 ^ 128 +
    stampBits (250004567 * 65536 + 32768) * 2 ^ 32 + 3 * 2 ^ 14)
theorem test_time_record :
    let s := timeRecordTake 96 record worker
    s.get F.flockTime_MEAN_DELAY 0 = 610 * 65536 ∧ s.get F.timeStatus_LAST_OFFSET 0 = 40 ∧
    s.time.integ = -388 * 2 ^ 24 ∧ s.time.adj = -8388 * 2 ^ 24 := by decide +kernel

/-- LOS of octet LO96 has INFO0 0x6000 (the example of chapter 16). -/
theorem test_defect_info : defectInfo 96 0 = 0x6000 := by decide

/-- The fault example of chapter 15: INJ of eight words, the fifth with a real double-bit error of syndrome 0x0C. -/
def injected : State :=
  let s := { ready with flt := { ready.flt with upset := [(wordRef 0x0500008E (781 * 8 + 4), 0x0C)] } }
  (faultInjectDo 0x0500008E 8 s).toOption.getD s
theorem test_injection :
    let r := evalWords 0x0500008E ((List.range 8).map (781 * 8 + ·)) injected
    let src := chkSource 0x0500008E
    r.2 = true ∧ r.1.get F.chkStatus_UE 0x0500008E = 1 ∧ r.1.get F.srcStatus_COUNT src = 8 ∧
    r.1.get F.srcStatus_LAST_SYNDROME src = 0xF3 ∧ r.1.on F.srcStatus_REAL_INJ src = true ∧
    r.1.on F.srcStatus_INJ_SEEN src = true ∧ r.1.get F.inject_LEFT 0 = 0 ∧ r.1.on F.inject_ARMED 0 = false ∧
    r.1.log.recs.map (fun e => (e.r.rep, e.r.inj, e.r.realInj)) = [(6, true, false), (0, true, true)] := by
  decide +kernel

/-- Worker 19 alone fails a flock-wide commit (the example of chapter 17). -/
theorem test_commit_words : (flockWords [] [19]).take 2 = [1, 0x0000100000000000] := by decide +kernel

/-- The check values of the two CRCs over the digits 1 to 9, and SHA-384 of "abc" (RFC 3720, IEEE 802.3, FIPS 180-4). -/
theorem test_checks :
    crc32c ((List.range 9).map fun i => BitVec.ofNat 8 (0x31 + i)) 0xFFFFFFFF = 0xE3069283 ∧
    fcsOf ((List.range 9).map fun i => BitVec.ofNat 8 (0x31 + i)) = 0xCBF43926 ∧
    (sha384 [0x61, 0x62, 0x63]).take 8 = [0xCB, 0x00, 0x75, 0x3F, 0x45, 0xA3, 0x5E, 0x8B] := by decide +kernel

/-- START_STATUS after reset: PHASE 001 and all else 0 (Table SU-1). -/
theorem test_start_status : startStatus State.reset = 0x2000000000000000 ∧
    startStatus ready = 0x8100000000000000 := by decide +kernel

end Sys2Proof.Tests
end

/-! The COMMIT of one unit (R10, R277) and the check of unit PENS (R17). -/

namespace Sys2Proof.Machine

open Sys2Proof

/-- A COMMIT that starts has the effect of its body, and then the clears that it lets go on reply (R346). -/
theorem exec_commit_of_starts {r : Request} {h : Held} {ctx : Nat} {s : State} (st : Starts r h ctx s)
    (ho : r.pkt.opcode = opCommit) :
    exec (.commit r .clean) s = .next (settleLog
      (settle h.n (begun h ctx s) (bodyCommit (h.inCtx ctx) none (begun h ctx s)))) := by
  have hf : isFlockCommit r.pkt s = false := not_flockCommit (by rw [ho]; decide)
  have hc : isCollect r.pkt = false := not_collect (by rw [ho]; decide)
  have hu : r.pkt.opcode ≠ opUnitReset := by rw [ho]; decide
  calc exec (.commit r .clean) s
      = .next (live (fun s => settleLog (runRow (isRow opCommit r.pkt s) bodyCommit r .clean s)) s) := rfl
    _ = _ := by rw [live_of_awake st.awake, isRow_of st ho hc hf, runRow_starts st bodyCommit hf (.inl hu)]

theorem bodyCommit_oneUnit {h : Held} {u : Nat} (s : State) (hu : unitsOf' h.req.pkt = some ([u], false)) :
    bodyCommit h none s = (some ((commitUnit u h.late s).1, []), (commitUnit u h.late s).2) := by
  simp [bodyCommit, hu, onePart]

/-- A COMMIT of one unit that starts answers the status of commitUnit in the state of commitUnit. -/
theorem exec_commit_oneUnit {r : Request} {h : Held} {ctx u : Nat} {s : State} (st : Starts r h ctx s)
    (ho : r.pkt.opcode = opCommit) (hu : unitsOf' r.pkt = some ([u], false)) :
    exec (.commit r .clean) s = .next (settleLog (answered h (begun h ctx s)
      ((commitUnit u h.late (begun h ctx s)).1, []) (commitUnit u h.late (begun h ctx s)).2)) := by
  have hu' : unitsOf' (h.inCtx ctx).req.pkt = some ([u], false) := by rw [Held.inCtx_req, waiting_pkt st.held, hu]
  rw [exec_commit_of_starts st ho, bodyCommit_oneUnit _ hu', settle_some, Held.inCtx_late]
  rfl

theorem commitUnit_failed {u : Nat} {late : List (Nat × ObjVal)} {s : State}
    (hok : unitOk u [u] (atAcceptance late s) = false) : commitUnit u late s = (stBadParam, s) := by
  simp [commitUnit, hok]

theorem unitOk_pens (us : List Nat) (s : State) : unitOk 0x04 us s = pensOk s := rfl

/-- The staged PACE_CONTROL that the check of unit PENS passes is in the ranges of R17. -/
theorem paceControl_of_pensOk {s : State} (hok : pensOk s = true) :
    680 ≤ s.getSt F.paceControl_VCORE_MIN 0 ∧
    s.getSt F.paceControl_VCORE_MIN 0 ≤ s.getSt F.paceControl_VCORE_FIXED 0 ∧
    s.getSt F.paceControl_VCORE_FIXED 0 ≤ s.getSt F.paceControl_VCORE_MAX 0 ∧
    s.getSt F.paceControl_VCORE_MAX 0 ≤ 820 ∧
    10 ≤ s.getSt F.paceControl_MARGIN 0 ∧ s.getSt F.paceControl_MARGIN 0 ≤ 100 := by
  simp only [pensOk, Bool.and_eq_true, decide_eq_true_eq] at hok
  obtain ⟨⟨⟨⟨⟨⟨⟨⟨⟨⟨hmin, hminFixed⟩, hfixedMax⟩, hmax⟩, hmargin⟩, hmargin'⟩, -⟩, -⟩, -⟩, -⟩, -⟩ := hok
  exact ⟨hmin, hminFixed, hfixedMax, hmax, hmargin, hmargin'⟩

/-- Settles O55: a PACE_CONTROL outside the ranges of R17 fails the check of unit PENS, and a COMMIT of one unit whose
check fails answers BAD_PARAM in the state in which it began. -/
theorem pensCommitIsChecked : Obligations.PensCommitIsChecked := by
  intro r h ctx s st ho hu a lo fixed hi margin hbad
  have hok : unitOk 0x04 [0x04] (atAcceptance h.late (begun h ctx s)) = false := by
    rw [unitOk_pens]
    exact Bool.eq_false_iff.mpr fun hpens => hbad (paceControl_of_pensOk hpens)
  rw [exec_commit_oneUnit st ho hu, commitUnit_failed hok]

end Sys2Proof.Machine

/-! The choice of a shape by the selector (R95). -/

namespace Sys2Proof.Machine

open Sys2Proof

/-! ### The least element of a list -/

theorem minBy_eq_none_iff {α : Type} (key : α → Nat) (xs : List α) : minBy key xs = none ↔ xs = [] := by
  cases xs with
  | nil => simp [minBy]
  | cons x xs =>
    simp only [minBy, reduceCtorEq, iff_false]
    split
    · simp
    · split <;> simp

/-- The least element is one of the list, and none of the list has a lower key. -/
theorem minBy_least {α : Type} {key : α → Nat} {xs : List α} {y : α} (h : minBy key xs = some y) :
    y ∈ xs ∧ ∀ x ∈ xs, key y ≤ key x := by
  induction xs generalizing y with
  | nil => simp [minBy] at h
  | cons x xs ih =>
    simp only [minBy] at h
    split at h
    next hnone =>
      obtain rfl := (minBy_eq_none_iff key xs).1 hnone
      obtain rfl := Option.some.inj h
      simp
    next z hz =>
      obtain ⟨hmem, hleast⟩ := ih hz
      split at h
      next hle =>
        obtain rfl := Option.some.inj h
        exact ⟨.head _, List.forall_mem_cons.2 ⟨Nat.le_refl _, fun w hw => Nat.le_trans hle (hleast w hw)⟩⟩
      next hlt =>
        obtain rfl := Option.some.inj h
        exact ⟨.tail _ hmem, List.forall_mem_cons.2 ⟨Nat.le_of_not_le hlt, hleast⟩⟩

theorem minBy_id_of_least {xs : List Nat} {e : Nat} (hmem : e ∈ xs) (hleast : ∀ x ∈ xs, e ≤ x) : minBy id xs = some e := by
  cases hmin : minBy id xs with
  | none => simp [(minBy_eq_none_iff id xs).1 hmin] at hmem
  | some y =>
    obtain ⟨hy, hley⟩ := minBy_least hmin
    exact congrArg some (Nat.le_antisymm (hley e hmem) (hleast y hy))

/-! ### The objects that the live store lists -/

theorem lookD_of_no_key {β : Type} (d : β) {m : List (Nat × β)} {q : Nat} (h : ∀ v, (q, v) ∉ m) : lookD d m q = d := by
  induction m with
  | nil => rfl
  | cons x m ih =>
    obtain ⟨k, w⟩ := x
    have hk : k ≠ q := fun hk => h w (hk ▸ .head _)
    rw [lookD, if_neg (by simpa using hk), ih fun v hv => h v (.tail _ hv)]

theorem oid_eq_add (c : Cls) (i : Nat) : oid c i = oid c 0 + i := by
  unfold oid
  omega

theorem State.mem_listed {s : State} {c : Cls} {i : Nat} :
    i ∈ s.listed c ↔ i < c.row.count ∧ ∃ v, (oid c i, v) ∈ s.live := by
  simp only [State.listed, List.mem_filterMap, Bool.and_eq_true, decide_eq_true_eq, Option.ite_none_right_eq_some,
    Option.some.injEq, Prod.exists]
  rw [oid_eq_add c i]
  constructor
  · rintro ⟨o, v, hmem, ⟨hlo, hhi⟩, rfl⟩
    rw [Nat.add_sub_cancel' hlo]
    exact ⟨by omega, v, hmem⟩
  · rintro ⟨hi, v, hmem⟩
    exact ⟨_, v, hmem, by omega, by omega⟩

/-- An object of the class that the live store does not list is at its reset value. -/
theorem State.obj_of_not_listed {s : State} {c : Cls} {i : Nat} (hi : i < c.row.count) (h : i ∉ s.listed c) :
    s.obj c i = resetVal c i :=
  lookD_of_no_key _ fun v hv => h (State.mem_listed.2 ⟨hi, v, hv⟩)

/-! ### Selector entries -/

/-- No selector entry is valid after reset (Table PS-7). -/
theorem resetVal_selCtrl_VALID (e : Nat) : fldGet (resetVal .selCtrl e) F.selCtrl_VALID = 0 := by
  have hreset : resetVal .selCtrl e = 0 := by simp [resetVal, fieldResets, Cls.fields, F.selCtrl_VALID, F.selCtrl_SHAPE]
  simp [hreset, fldGet]

/-- (x XOR key) AND mask is zero exactly when x agrees with key in each bit that mask holds. -/
theorem xor_and_eq_zero_iff {w : Nat} (x key mask : BitVec w) :
    (x ^^^ key) &&& mask = 0 ↔ ∀ k < w, mask.getLsbD k = true → x.getLsbD k = key.getLsbD k := by
  rw [BitVec.eq_of_getLsbD_eq_iff]
  refine forall₂_congr fun k _ => ?_
  have hbit (a b m : Bool) : ((a ^^ b) && m) = false ↔ (m = true → a = b) := by cases m <;> simp
  simpa using hbit (x.getLsbD k) (key.getLsbD k) (mask.getLsbD k)

theorem selMatch_iff {pv : BitVec 512} {s : State} {e : Nat} :
    selMatch pv s e = true ↔ s.get F.selCtrl_VALID e = 1 ∧
      ∀ k < 512, (selWords .selMask e s).getLsbD k = true → pv.getLsbD k = (selWords .selKey e s).getLsbD k := by
  rw [← xor_and_eq_zero_iff, selMatch, Bool.and_eq_true, State.on, beq_iff_eq, beq_iff_eq]

/-- A valid selector entry differs from its reset value, so the live store lists it. -/
theorem selCtrl_listed_of_valid {s : State} {e : Nat} (he : e < Cls.selCtrl.row.count)
    (hvalid : s.get F.selCtrl_VALID e = 1) : e ∈ s.listed .selCtrl := by
  refine Decidable.byContradiction fun h => ?_
  have hzero : s.get F.selCtrl_VALID e = 0 :=
    (congrArg (fldGet · F.selCtrl_VALID) (State.obj_of_not_listed he h)).trans (resetVal_selCtrl_VALID e)
  omega

/-- The entries among which selectShape takes the lowest are all those that match. -/
theorem mem_filter_selMatch {pv : BitVec 512} {s : State} {e : Nat} :
    e ∈ (s.listed .selCtrl).filter (selMatch pv s) ↔ e < Cls.selCtrl.row.count ∧ selMatch pv s e = true := by
  rw [List.mem_filter]
  refine and_congr_left fun hmatch => ⟨fun hlisted => (State.mem_listed.1 hlisted).1, fun he => ?_⟩
  exact selCtrl_listed_of_valid he (selMatch_iff.1 hmatch).1

theorem selectShape_of_lowest {pv : BitVec 512} {s : State} {e : Nat} (he : e < Cls.selCtrl.row.count)
    (hmatch : selMatch pv s e = true) (hlowest : ∀ k < e, ¬selMatch pv s k = true) :
    selectShape pv s = s.get F.selCtrl_SHAPE e := by
  have hmin : minBy id ((s.listed .selCtrl).filter (selMatch pv s)) = some e :=
    minBy_id_of_least (mem_filter_selMatch.2 ⟨he, hmatch⟩) fun k hk =>
      Nat.le_of_not_lt fun hlt => hlowest k hlt (mem_filter_selMatch.1 hk).2
  rw [selectShape, hmin]

theorem selectShape_of_no_match {pv : BitVec 512} {s : State}
    (hnone : ∀ e < Cls.selCtrl.row.count, ¬selMatch pv s e = true) : selectShape pv s = 0 := by
  have hempty : (s.listed .selCtrl).filter (selMatch pv s) = [] :=
    List.eq_nil_iff_forall_not_mem.2 fun e he =>
      let ⟨hlt, hmatch⟩ := mem_filter_selMatch.1 he
      hnone e hlt hmatch
  rw [selectShape, hempty, minBy]

/-- Settles O56: the live store lists every matching entry, since one that it does not list has VALID 0, and selectShape
takes the least of the matching entries listed. -/
theorem lowestMatchChoosesTheShape : Obligations.LowestMatchChoosesTheShape := by
  intro pv s matches_
  have hmatches (e : Nat) : matches_ e ↔ selMatch pv s e = true := selMatch_iff.symm
  simp only [hmatches]
  exact ⟨fun e => selectShape_of_lowest, selectShape_of_no_match⟩

end Sys2Proof.Machine

/-! The version slots after reset and the check of unit VERSIONS (R159). -/

namespace Sys2Proof.Machine

open Sys2Proof

/-- After reset every field has the value of its object's reset value: the live store holds no exception to it (R7). -/
theorem State.get_reset (f : Fld) (i : Nat) : State.reset.get f i = fldGet (resetVal f.cls i) f := rfl

theorem unitOk_versions (us : List Nat) (s : State) : unitOk 0x09 us s = versionsOk us s := rfl

/-- What a COMMIT with unit VERSIONS would make of a field of VERSION_CFG is its staged copy. -/
theorem State.eff_of_versions {us : List Nat} {f : Fld} {s : State} (hus : 0x09 ∈ us) (hf : f.cls = .versionCfg) (i : Nat) :
    s.eff us f i = s.getSt f i := by
  have hunit : f.cls.row.unit = 0x09 := congrArg (fun c => (Cls.row c).unit) hf
  rw [State.eff, hunit, if_pos (List.contains_iff_mem.2 hus)]

/-- The check of unit VERSIONS passes exactly the staged values in the ranges of Table AV-14. -/
theorem versionsOk_iff {us : List Nat} {s : State} (hus : 0x09 ∈ us) :
    versionsOk us s = true ↔
      (1 ≤ s.getSt F.versionCfg_COMMIT_TIMEOUT 0 ∧ s.getSt F.versionCfg_COMMIT_TIMEOUT 0 ≤ 1000000) ∧
        10 ≤ s.getSt F.versionCfg_DRAIN_LIMIT 0 ∧ s.getSt F.versionCfg_DRAIN_LIMIT 0 ≤ 100000 := by
  simp only [versionsOk, State.eff_of_versions hus (f := F.versionCfg_COMMIT_TIMEOUT) rfl,
    State.eff_of_versions hus (f := F.versionCfg_DRAIN_LIMIT) rfl, Bool.and_eq_true, decide_eq_true_eq, and_assoc]

/-- Settles O6: after reset the fields have their reset values, and a VERSION_CFG with a field out of range fails the check
of unit VERSIONS, so that its COMMIT answers BAD_PARAM in the state in which it began. -/
theorem versionsAfterReset : Obligations.VersionsAfterReset := by
  refine ⟨?current, ?state, ?ver, ?staged, fun s hbad => commitUnit_failed ?check⟩
  case current => rw [State.get_reset]; decide +kernel
  case state => rw [State.get_reset]; decide +kernel
  case ver => rw [State.get_reset]; decide +kernel
  case staged => rw [State.get_reset]; decide +kernel
  case check =>
    show unitOk 0x09 [0x09] s = false
    rw [unitOk_versions, Bool.eq_false_iff, ne_eq, versionsOk_iff (List.mem_singleton_self _)]
    omega

end Sys2Proof.Machine

/-! The PPS input, the pulse outputs, TS_FIFO and the time records (R241, R243, R245 to R248). -/

namespace Sys2Proof.Machine

open Sys2Proof

section time

variable {s : State}

/-! ### The rows of an awake device -/

theorem exec_ppsEdge (h : Awake s) (falling : Bool) : exec (.ppsEdge falling) s = .next (ppsEdgeDo falling s) :=
  congrArg _ (live_of_awake h)

theorem exec_toutEdge (h : Awake s) {n : Nat} (hn : n < 8) : exec (.toutEdge n) s = .next (toutEdgeDo n s) :=
  (onIdx_next (c := .tout) hn).trans (congrArg _ (live_of_awake h))

theorem exec_toutPulseEnd (h : Awake s) {n : Nat} (hn : n < 8) :
    exec (.toutPulseEnd n) s = .next (toutPulseEndDo n s) :=
  (onIdx_next (c := .tout) hn).trans (congrArg _ (live_of_awake h))

theorem exec_tsFifoRead (h : Awake s) : exec .tsFifoRead s = .next (tsTake s).2 :=
  congrArg _ (live_of_awake h)

theorem exec_timeRecordSend (h : Awake s) : exec .timeRecordSend s = .next (timeSendDo s) :=
  congrArg _ (live_of_awake h)

theorem exec_timeRecordReceive (h : Awake s) {o : Nat} (ho : o < 128) (rec : BitVec 256) (errored : Bool) :
    exec (.timeRecordReceive o rec errored) s = .next (timeTakeDo o rec errored s) :=
  (onRange_next ho).trans (congrArg _ (live_of_awake h))

/-! ### The PPS input (R245, R246) -/

theorem ppsEdgeDo_unselected {falling : Bool} (h : s.on F.pps_EN 0 = false ∨ s.on F.pps_EDGE 0 ≠ falling) :
    ppsEdgeDo falling s = s := by
  rcases h with hen | hedge
  · simp [ppsEdgeDo, hen]
  · simp [ppsEdgeDo, hedge]

theorem ppsEdgeDo_glitch {falling : Bool} {t : Nat} (hen : s.on F.pps_EN 0 = true) (hedge : s.on F.pps_EDGE 0 = falling)
    (hlast : s.time.lastPps = some t) (hsoon : s.frc < t + 500000000) :
    ppsEdgeDo falling s = s.inc F.pps_GLITCH 0 := by
  simp [ppsEdgeDo, hen, hedge, hlast, hsoon]

theorem ppsEdgeDo_captured {falling : Bool} (hen : s.on F.pps_EN 0 = true) (hedge : s.on F.pps_EDGE 0 = falling)
    (hlast : s.time.lastPps = none ∨ ∃ t, s.time.lastPps = some t ∧ t + 500000000 ≤ s.frc) :
    ppsEdgeDo falling s = ppsEdgeDo.capture s := by
  rcases hlast with hfirst | ⟨t, hlast, hlate⟩
  · simp [ppsEdgeDo, hen, hedge, hfirst]
  · simp [ppsEdgeDo, hen, hedge, hlast, Nat.not_lt.2 hlate]

/-! ### The pulse outputs (R243) -/

theorem toutEdgeDo_due {n t : Nat} (hnext : (s.toutSt n).next = some t) (hpulse : (s.toutSt n).pulse = none)
    (hen : s.on F.tout_EN n = true) (hdue : t ≤ s.todNs) :
    toutEdgeDo n s = (s.setTout n
      { next := if s.get F.tout_PERIOD n ≠ 0 then some (t + s.get F.tout_PERIOD n) else none,
        pulse := some (s.frc + s.get F.tout_WIDTH n, s.on F.tout_POL n), fired := true }).inc F.tout_EDGES n := by
  simp [toutEdgeDo, hnext, hpulse, hen, hdue]

/-- Before its time an output has no edge, whether a pulse is active or not. -/
theorem toutEdgeDo_early {n t : Nat} (hnext : (s.toutSt n).next = some t) (hearly : s.todNs < t) :
    toutEdgeDo n s = s := by
  cases hpulse : (s.toutSt n).pulse with
  | none => simp [toutEdgeDo, hnext, hpulse, Nat.not_le.2 hearly]
  | some p => simp [toutEdgeDo, hnext, hpulse]

theorem toutPulseEndDo_of_pulse {n e : Nat} {pol : Bool} (hpulse : (s.toutSt n).pulse = some (e, pol)) :
    toutPulseEndDo n s = if e ≤ s.frc then s.setTout n { s.toutSt n with pulse := none } else s := by
  simp [toutPulseEndDo, hpulse]

/-! ### Time records (R247, R248) -/

theorem recordsDue_iff : recordsDue s = true ↔
    ∀ t, s.time.lastRecord = some t → t + s.get F.flockTime_SYNC_INTERVAL 0 * 1000 ≤ s.frc := by
  cases hlast : s.time.lastRecord <;> simp [recordsDue, hlast]

theorem timeSendDo_of_not_due (h : recordsDue s = false) : timeSendDo s = s := by simp [timeSendDo, h]

theorem timeSendDo_of_due (h : recordsDue s = true) :
    timeSendDo s = ((List.range 128).filter fun o => framerRuns o s && !(txSlots o 3 s).isEmpty).foldl
      (fun s o => timeRecordSent o (timeRecordOut o (timeRecordBits o s) s))
      { s with time := { s.time with lastRecord := some s.frc } } := by
  simp [timeSendDo, h]

variable {o : Nat} {rec : BitVec 256}

theorem timeTakeDo_unheard {errored : Bool} (h : channelHears o 3 s = false) : timeTakeDo o rec errored s = s := by
  simp [timeTakeDo, h]

/-- Outside a near-end loopback an errored record is discarded. -/
theorem timeTakeDo_errored (hloop : hearsLoop (octetLanes o) s = false) : timeTakeDo o rec true s = s := by
  simp [timeTakeDo, hloop]

theorem timeTakeDo_whole (hhears : channelHears o 3 s = true) (hloop : hearsLoop (octetLanes o) s = false)
    (hline : hearsLine (octetLanes o) s = true) : timeTakeDo o rec false s = timeRecordTake o rec s := by
  simp [timeTakeDo, hhears, hloop, hline]

/-- What the time channel of an octet keeps enters no field. -/
@[simp] theorem State.get_setTimeLink (v : TimeLink) (f : Fld) (i : Nat) : (s.setTimeLink o v).get f i = s.get f i := rfl

theorem timeRecordTake_not_upstream (hup : s.get F.flockTime_UPSTREAM 0 ≠ o) :
    timeRecordTake o rec s =
      s.setTimeLink o { s.timeLink o with last := some (bits rec.toNat 255 240, s.tod16) } := by
  simp [timeRecordTake, hup]

theorem timeRecordTake_other_source (hup : s.get F.flockTime_UPSTREAM 0 = o) (hsrc : s.get F.timeCfg_SRC 0 ≠ 2) :
    timeRecordTake o rec s =
      (s.setTimeLink o { s.timeLink o with last := some (bits rec.toNat 255 240, s.tod16) }).inc F.flockTime_IGNORED 0 := by
  simp [timeRecordTake, hup, hsrc]

/-- A record from upstream that answers a kept stamp, from a device with a source, is a sample for a servo that follows the
flock. -/
theorem timeRecordTake_sample (hup : s.get F.flockTime_UPSTREAM 0 = o) (hsrc : s.get F.timeCfg_SRC 0 = 2)
    (hsrcOk : bit rec.toNat 15 = true) (hecho : bit rec.toNat 14 = true) {seq t3 : Nat}
    (hsent : (s.timeLink o).sent.find? (fun x => x.1 == bits rec.toNat 239 224) = some (seq, t3)) :
    timeRecordTake o rec s =
      (let t := s.setTimeLink o { s.timeLink o with last := some (bits rec.toNat 255 240, s.tod16) }
       let a : Int := (s.tod16 : Int) - (bitsStamp (bits rec.toNat 223 128) : Int)
       let b : Int := (bitsStamp (bits rec.toNat 127 32) : Int) - (t3 : Int)
       let u := (t.put F.flockTime_MEAN_DELAY 0 (min (2 ^ 32 - 1) (half (a + b)).toNat)).put F.flockTime_HOPS 0
         (min 63 (bits rec.toNat 21 16 + 1))
       servoSample (half (a - b) - toSigned 32 (u.get F.flockTime_ASYM 0)) u) := by
  simp only [timeRecordTake, State.get_setTimeLink, hup, hsrc, hsrcOk, hecho, hsent, ne_eq, not_true_eq_false, if_false,
    beq_self_eq_true, Bool.and_self]

end time

/-- Settles O47: each row of an awake device is its own meaning, and that meaning follows the conditions on the state. The
records of all links at once are the choice of log entry 87; halves rounded down and a MEAN_DELAY below 0 taken as 0 are the
deduction of entry 29. -/
theorem edgesAndStampsFollow : Obligations.EdgesAndStampsFollow := by
  intro s awake
  refine ⟨fun falling => ⟨?unselected, fun hen hedge => ⟨?glitch, ?captured⟩⟩,
    fun n hn => ⟨?edge, ?early, fun e pol hpulse => ⟨?pulseEnds, ?pulseStays⟩⟩, ?fifo, ?recordsWait, ?recordsLeave,
    fun o ho rec => ⟨?unheard, ?errored, fun hhears hloop hline => ⟨?notUpstream, ?otherSource, ?sample⟩⟩⟩
  case unselected =>
    intro h
    rw [exec_ppsEdge awake, ppsEdgeDo_unselected h]
  case glitch =>
    intro t hlast hsoon
    rw [exec_ppsEdge awake, ppsEdgeDo_glitch hen hedge hlast hsoon]
  case captured =>
    intro hlast
    rw [exec_ppsEdge awake, ppsEdgeDo_captured hen hedge hlast]
    simp only [ppsEdgeDo.capture, State.frc, State.inc_time, State.puts_time, beq_iff_eq]
  case edge =>
    intro t hnext hpulse hen hdue
    rw [exec_toutEdge awake hn, toutEdgeDo_due hnext hpulse hen hdue]
  case early =>
    intro t hnext hearly
    rw [exec_toutEdge awake hn, toutEdgeDo_early hnext hearly]
  case pulseEnds =>
    intro hend
    rw [exec_toutPulseEnd awake hn, toutPulseEndDo_of_pulse hpulse, if_pos hend]
  case pulseStays =>
    intro hactive
    rw [exec_toutPulseEnd awake hn, toutPulseEndDo_of_pulse hpulse, if_neg (Nat.not_le.2 hactive)]
  case fifo => exact exec_tsFifoRead awake
  case recordsWait =>
    intro t hlast hsoon
    have hnot : recordsDue s = false :=
      Bool.eq_false_iff.2 fun hdue => Nat.not_le.2 hsoon (recordsDue_iff.1 hdue t hlast)
    rw [exec_timeRecordSend awake, timeSendDo_of_not_due hnot]
  case recordsLeave =>
    intro hdue
    rw [exec_timeRecordSend awake, timeSendDo_of_due (recordsDue_iff.2 hdue)]
  case unheard =>
    intro errored h
    rw [exec_timeRecordReceive awake ho, timeTakeDo_unheard h]
  case errored =>
    intro hloop
    rw [exec_timeRecordReceive awake ho, timeTakeDo_errored hloop]
  case notUpstream =>
    intro hup
    rw [exec_timeRecordReceive awake ho, timeTakeDo_whole hhears hloop hline, timeRecordTake_not_upstream hup]
  case otherSource =>
    intro hup hsrc
    rw [exec_timeRecordReceive awake ho, timeTakeDo_whole hhears hloop hline, timeRecordTake_other_source hup hsrc]
  case sample =>
    intro hup hsrc hsrcOk hecho seq t3 hsent
    rw [exec_timeRecordReceive awake ho, timeTakeDo_whole hhears hloop hline,
      timeRecordTake_sample hup hsrc hsrcOk hecho hsent]

end Sys2Proof.Machine

/-! The sideband ring's stream and replies, and its station with SB_EN 0 (R273, R290). -/

namespace Sys2Proof.Machine

open Sys2Proof

section sideband

variable {s : State}

/-! ### The stream and the replies of the ring (R273, R290) -/

/-- Only the commands of the ring, and of a PCIe queue of that number, are of stream 65. -/
theorem sideband_or_pcie_of_streamOf {ch : Channel} (h : streamOf ch = 65) :
    (∃ q u v w x, ch = .pcie q u v w x) ∨ ∃ a, ch = .sideband a := by
  cases ch with
  | pcie q u v w x => exact .inl ⟨q, u, v, w, x, rfl⟩
  | inband port mac tags => simp [streamOf] at h
  | sideband a => exact .inr ⟨a, rfl⟩
  | flock o => simp [streamOf] at h

@[simp] theorem sbPush_sbOut (dst : Nat) (bytes : List Byte) (reply : Bool) (s : State) :
    (sbPush dst bytes reply s).crook.sb.out = s.crook.sb.out ++ [{ dst, bytes, tries := 0, reply }] := rfl

theorem sendReplies_sideband_sbOut (src st : Nat) (req : Packet) (rs : List Packet) (s : State) :
    (sendReplies (.sideband src) req st rs s).crook.sb.out =
      s.crook.sb.out ++ rs.map fun p => { dst := src, bytes := packetBytes p, tries := 0, reply := true } := by
  induction rs generalizing s with
  | nil => exact (List.append_nil _).symm
  | cons r rs ih =>
    calc (sendReplies (.sideband src) req st (r :: rs) s).crook.sb.out
        = (sendReplies (.sideband src) req st rs (sbPush src (packetBytes r) true s)).crook.sb.out := rfl
      _ = _ := by rw [ih, sbPush_sbOut, List.append_assoc]; rfl

/-! ### The rows of the station with SB_EN 0 (R290) -/

theorem sbTokenDo_off (awake : Awake s) (off : sbOn s = false) (gen : BitVec 8) (mon : Bool) :
    sbTokenDo gen mon s = s.emit (.sbToken gen mon) := by
  simp [sbTokenDo, awake, off]

/-- A station that is off repeats MON, A and C as they came, even where SB_STATE still says monitor. -/
theorem sbDataDo_off (awake : Awake s) (off : sbOn s = false) (d : SbData) :
    sbDataDo d s = s.emit (.sbData d.mon d.dst d.src d.packet d.a d.c) := by
  simp [sbDataDo, awake, off]

theorem sbClaimDo_off (awake : Awake s) (off : sbOn s = false) (src : Nat) (crcOk : Bool) :
    sbClaimDo src crcOk s = s.emit (.sbClaim src) := by
  simp [sbClaimDo, awake, off]

theorem sbTokenTimeoutDo_off (off : sbOn s = false) : sbTokenTimeoutDo s = s := by simp [sbTokenTimeoutDo, off]

theorem claiming_off (off : sbOn s = false) : claiming s = false := by simp [claiming, off]

theorem sbClaimStartDo_off (off : sbOn s = false) : sbClaimStartDo s = s := by simp [sbClaimStartDo, off]

theorem sbClaimSendDo_off (off : sbOn s = false) : sbClaimSendDo s = s := by simp [sbClaimSendDo, claiming_off off]

theorem sbRingFaultDo_off (off : sbOn s = false) : sbRingFaultDo s = s := by simp [sbRingFaultDo, off]

end sideband

/-- Settles O24: stream 65 by the channels, the replies by induction on their list, and each row of the station, whose
result is its own meaning, by the branch that SB_EN 0 takes. -/
theorem sidebandOffRepeats : Obligations.SidebandOffRepeats := by
  refine ⟨fun _ => rfl, fun _ => sideband_or_pcie_of_streamOf, sendReplies_sideband_sbOut, fun s awake off =>
    ⟨fun gen mon => ?token, fun d => ?data, fun src crcOk => ?claim, ?timeout, ?claimStart, ?claimSend, ?ringFault⟩⟩
  case token => exact congrArg _ (sbTokenDo_off awake off gen mon)
  case data => exact congrArg _ (sbDataDo_off awake off d)
  case claim => exact congrArg _ (sbClaimDo_off awake off src crcOk)
  case timeout => exact congrArg _ (sbTokenTimeoutDo_off off)
  case claimStart => exact congrArg _ (sbClaimStartDo_off off)
  case claimSend => exact congrArg _ (sbClaimSendDo_off off)
  case ringFault => exact congrArg _ (sbRingFaultDo_off off)

end Sys2Proof.Machine

/-! Escalation windows that run out or stop, and open records that close (R323, R325, R334, R341). -/

namespace Sys2Proof.Machine

open Sys2Proof

section faults

variable {s : State}

/-! ### The rows of an awake device -/

theorem exec_escalationExpiry (h : Awake s) {src : Nat} (hsrc : src < 64) :
    exec (.escalationExpiry src) s = .next (escalateDo src s) :=
  (onIdx_next (c := .srcCfg) hsrc).trans (congrArg _ (live_of_awake h))

theorem exec_escalationTimerStop (h : Awake s) {src : Nat} (hsrc : src < 64) :
    exec (.escalationTimerStop src) s = .next (timerStopDo src s) :=
  (onIdx_next (c := .srcCfg) hsrc).trans (congrArg _ (live_of_awake h))

theorem exec_recordClose (h : Awake s) (seq : Nat) : exec (.recordClose seq) s = .next (closeSeq seq s) :=
  congrArg _ (live_of_awake h)

/-! ### The recorder leaves the fault unit as it is -/

@[simp] theorem notify_flt (v : Nat) (s : State) : (notify v s).flt = s.flt := by
  unfold notify
  split <;> simp

theorem openBlock_flt {b : Nat} {t : State} (h : openBlock s = some (b, t)) : t.flt = s.flt := by
  unfold openBlock at h
  split at h
  · contradiction
  · obtain ⟨-, rfl⟩ := Prod.mk.inj (Option.some.inj h)
    rfl

@[simp] theorem startProgram_flt (s : State) : (startProgram s).flt = s.flt := by
  unfold startProgram
  dsimp only
  split
  · rfl
  · split
    next => rfl
    next b t hplace =>
      split at hplace
      next =>
        obtain ⟨-, rfl⟩ := Prod.mk.inj (Option.some.inj hplace)
        rfl
      next => exact (openBlock_flt hplace :)

@[simp] theorem notifyRec_flt (s : State) : (notifyRec s).flt = s.flt := notify_flt ..

@[simp] theorem storeRec_flt (e : LogEntry) (s : State) : (storeRec e s).flt = s.flt := rfl

@[simp] theorem whenever_notifyRec_flt (b : Bool) (s : State) : (whenever b notifyRec s).flt = s.flt := by
  cases b with
  | false => rfl
  | true => exact notifyRec_flt s

@[simp] theorem storeNotes_flt (s : State) : (storeNotes s).flt = s.flt := by simp [storeNotes]

@[simp] theorem writeEntry_flt (e : LogEntry) (s : State) : (writeEntry e s).flt = s.flt := by
  unfold writeEntry
  split
  · simp
  · split <;> simp

@[simp] theorem recEvent_flt (code cls : Nat) (inj realInj : Bool) (info0 info1 : Nat) (s : State) :
    (recEvent code cls inj realInj info0 info1 s).flt = s.flt := by
  simp only [recEvent]
  split
  · split
    · rfl
    · split <;> simp
  · split
    · simp
    · split <;> simp

@[simp] theorem recPlain_flt (code info0 info1 : Nat) (s : State) : (recPlain code info0 info1 s).flt = s.flt :=
  recEvent_flt ..

theorem foldl_writeEntry_flt (es : List LogEntry) (s : State) :
    (es.foldl (fun s e => writeEntry e s) s).flt = s.flt := by
  induction es generalizing s with
  | nil => rfl
  | cons e es ih => exact (ih _).trans (writeEntry_flt e s)

@[simp] theorem flushHeld_flt (s : State) : (flushHeld s).flt = s.flt := by simp [flushHeld, foldl_writeEntry_flt]

@[simp] theorem flushFatal_flt (s : State) : (flushFatal s).flt = s.flt := by simp [flushFatal, writeReset]

@[simp] theorem closeAll_flt (s : State) : (closeAll s).flt = s.flt := startProgram_flt _

/-! ### A fatal fault and the end of a window leave the actions that are due -/

@[simp] theorem declareFatal_due (src inst : Nat) (s : State) : (declareFatal src inst s).flt.due = s.flt.due := by
  simp only [declareFatal]
  split
  · rfl
  · split
    · split <;> simp
    · simp

@[simp] theorem stopTimer_due (src : Nat) (s : State) : (stopTimer src s).flt.due = s.flt.due := by simp [stopTimer]

/-! ### The actions of a source that are due -/

/-- The actions of a source that are due are taken, in their order. -/
def takeDue (src : Nat) (s : State) : State :=
  (s.flt.due.filter (·.src == src)).foldl (fun s d => actDue d s)
    { s with flt := { s.flt with due := s.flt.due.filter (·.src != src) } }

theorem escalateDo_over {src : Nat} (h : windowOver src s = true) : escalateDo src s = takeDue src (escalateNow src s) := by
  simp [escalateDo, whenever, h, takeDue]

theorem escalateDo_running {src : Nat} (h : windowOver src s = false) : escalateDo src s = takeDue src s := by
  simp [escalateDo, whenever, h, takeDue]

theorem takeDue_none {src : Nat} (h : ∀ d ∈ s.flt.due, d.src ≠ src) : takeDue src s = s := by
  have hmine : s.flt.due.filter (·.src == src) = [] := by simpa using h
  have hothers : s.flt.due.filter (·.src != src) = s.flt.due := by simpa using h
  rw [takeDue, hmine, hothers, List.foldl_nil]

/-- An action comes to be due. -/
def addDue (d : Due) (s : State) : State := { s with flt := { s.flt with due := s.flt.due ++ [d] } }

/-- One action put behind those of other sources is taken alone, and they stay. -/
theorem takeDue_addDue {src : Nat} {d : Due} (h : ∀ d ∈ s.flt.due, d.src ≠ src) (hd : d.src = src) :
    takeDue src (addDue d s) = actDue d s := by
  have hmine : (s.flt.due ++ [d]).filter (·.src == src) = [d] := by simpa [hd] using h
  have hothers : (s.flt.due ++ [d]).filter (·.src != src) = s.flt.due := by simpa [hd] using h
  simp only [takeDue, addDue, hmine, hothers, List.foldl_cons, List.foldl_nil]

theorem takeDue_single {src : Nat} {d : Due} (h : s.flt.due = [d]) (hd : d.src = src) :
    takeDue src s = actDue d { s with flt := { s.flt with due := [] } } := by
  simp [takeDue, h, hd]

theorem actDue_isolate {d : Due} (h : d.action = 0) :
    actDue d s = (d.insts.flatMap (actedOn d.src)).foldl (fun s i => isolateInst i s) s := by simp only [actDue, h]

theorem actDue_reset {d : Due} (h : d.action = 1) : actDue d s = d.insts.foldl (fun s i => resetInst i s) s := by
  simp only [actDue, h]

theorem actDue_report {d : Due} (h : d.action = 3) : actDue d s = s := by simp only [actDue, h]

/-! ### The escalation of a source whose window has run out (R325) -/

theorem windowOver_iff {src : Nat} :
    windowOver src s = true ↔ s.on F.srcStatus_PENDING src = true ∧ ∃ e ∈ s.flt.timers, e.1 = src ∧ e.2 ≤ s.frc := by
  simp [windowOver]

/-- The window of a source has ended, ESCALATED is set, and EV_FAULT_ESCALATE and the event of PF3 vector 0 are made. -/
def escalated (src : Nat) (s : State) : State :=
  notify (vecIdx 3 0) (recPlain 0x11
    (src * 2 ^ 24 + s.get F.srcCfg_ACTION src * 2 ^ 22 + (lookD [] s.flt.insts src).length % 16 * 2 ^ 16)
    ((lookD [] s.flt.insts src).headD 0) ((stopTimer src s).put F.srcStatus_ESCALATED src 1))

@[simp] theorem escalated_due (src : Nat) (s : State) : (escalated src s).flt.due = s.flt.due := by simp [escalated]

theorem escalateNow_fatal {src : Nat} (h : s.get F.srcCfg_ACTION src = 2) :
    escalateNow src s = declareFatal src ((lookD [] s.flt.insts src).headD 0) (escalated src s) :=
  if_pos (beq_iff_eq.2 h)

theorem escalateNow_addDue {src : Nat} (h : s.get F.srcCfg_ACTION src ≠ 2) :
    escalateNow src s = addDue ⟨src, s.get F.srcCfg_ACTION src, lookD [] s.flt.insts src⟩ (escalated src s) :=
  if_neg (mt beq_iff_eq.1 h)

theorem escalateDo_fatal {src : Nat} (hdue : ∀ d ∈ s.flt.due, d.src ≠ src) (hover : windowOver src s = true)
    (h : s.get F.srcCfg_ACTION src = 2) :
    escalateDo src s = declareFatal src ((lookD [] s.flt.insts src).headD 0) (escalated src s) := by
  rw [escalateDo_over hover, escalateNow_fatal h, takeDue_none (by simpa using hdue)]

theorem escalateDo_acts {src : Nat} (hdue : ∀ d ∈ s.flt.due, d.src ≠ src) (hover : windowOver src s = true)
    (h : s.get F.srcCfg_ACTION src ≠ 2) :
    escalateDo src s =
      actDue ⟨src, s.get F.srcCfg_ACTION src, lookD [] s.flt.insts src⟩ (escalated src s) := by
  rw [escalateDo_over hover, escalateNow_addDue h]
  exact takeDue_addDue (by simpa using hdue) rfl

/-! ### A window that stops (R323) and a record that closes (R334, R341) -/

theorem timerStopDo_eq (src : Nat) (s : State) :
    timerStopDo src s =
      if srcLevel src = true ∧ s.on F.srcCfg_TRANSIENT_OK src = true ∧ s.on F.srcStatus_LIVE src = false ∧
        s.on F.srcStatus_PENDING src = true then stopTimer src s else s := by
  simp [timerStopDo, and_assoc]

theorem LogEntry.due_iff {now : Nat} {e : LogEntry} :
    e.due now = true ↔ e.r.isOpen = true ∧ e.since + e.openMs * 10 ^ 6 ≤ now := by simp [LogEntry.due]

/-- A record is closed where it is open and its time has passed, and waits for flash where its REPEAT is not there. -/
theorem LogEntry.close_if_due (q now : Nat) (e : LogEntry) :
    (if (e.r.seq == q && e.due now) = true then e.close else e) =
      if e.r.seq = q ∧ e.r.isOpen = true ∧ e.since + e.openMs * 10 ^ 6 ≤ now then
        { e with r := { e.r with isOpen := false },
                 waiting := e.waiting || (if e.flying.isSome then e.flying else e.prog) != some e.r.rep }
      else e := by
  simp only [Bool.and_eq_true, beq_iff_eq, LogEntry.due_iff]
  refine ite_congr rfl (fun h => ?_) fun _ => rfl
  obtain ⟨-, hopen, -⟩ := h
  rw [LogEntry.close, if_pos hopen, LogEntry.lastProg]

end faults

/-- Settles O53: an escalation puts its ISOLATE, RESET or REPORT behind the actions of other sources that are due, and the
row takes it alone, as it takes the one that was due from a raise before (DEDUCED, log entry 31); a record is
closed exactly where it is open and its time has passed. -/
theorem escalationAndRecordsEnd : Obligations.EscalationAndRecordsEnd := by
  intro s awake
  refine ⟨fun src hsrc hdue => ?expiry, fun src d hsrc hidle hdue hd => ?due, fun src hsrc => ?stop, fun q => ?close⟩
  case expiry =>
    rw [exec_escalationExpiry awake hsrc, ← windowOver_iff]
    refine ⟨fun hidle => ?_, fun hover hact => ?_, fun hover hact => ?_, fun hover hact => ?_, fun hover hact => ?_⟩
    · rw [escalateDo_running (Bool.eq_false_iff.2 hidle), takeDue_none hdue]
    · rw [escalateDo_acts hdue hover (by omega), actDue_isolate hact]
      rfl
    · rw [escalateDo_acts hdue hover (by omega), actDue_reset hact]
      rfl
    · rw [escalateDo_fatal hdue hover hact]
      rfl
    · rw [escalateDo_acts hdue hover (by omega), actDue_report hact]
      rfl
  case due =>
    have hover : windowOver src s = false := by simp [windowOver, hidle]
    rw [exec_escalationExpiry awake hsrc, escalateDo_running hover, takeDue_single hdue hd]
    exact ⟨fun hact => by rw [actDue_isolate hact, hd], fun hact => by rw [actDue_reset hact]⟩
  case stop =>
    rw [exec_escalationTimerStop awake hsrc, timerStopDo_eq]
    exact ⟨fun stops => by rw [if_pos stops], fun runs => by rw [if_neg runs]⟩
  case close =>
    simp only [exec_recordClose awake, closeSeq, LogEntry.close_if_due]

end Sys2Proof.Machine

/-! The rows of the table by the guard that each puts before its effect: RESET_N and a fatal fault stop a row, and one that
numbers an element takes only those that the device has (R6, R329, R365). -/

namespace Sys2Proof.Machine

open Sys2Proof

/-- The guards of a row: the effect that it has on the device or on the element that it numbers first, which nothing but the
rows of the reset balls and supplies has while RESET_N is asserted, and no row of the frame path after a fatal fault. -/
inductive Guarded (i : Instr) : Prop
  | onDevice (f : State → State) (result : ∀ s, exec i s = .next (f s))
      (held : Instr.actsInReset i = false → ∀ s : State, s.sys.inReset = true → f s = s)
      (stopped : Instr.framePath i = true → ∀ s : State, s.flt.fatal = true → f s = s)
      (element : Instr.actsOnOne i = true → i.elements = [])
  | onElement (n k : Nat) (f : State → State) (result : ∀ s, exec i s = onRange n k s f)
      (held : ∀ s : State, s.sys.inReset = true → f s = s)
      (stopped : Instr.framePath i = true → ∀ s : State, s.flt.fatal = true → f s = s)
      (element : i.elements.head? = some (k, n))

section rows

variable {i : Instr} {s : State}

theorem live_congr {f g : State → State} (h : f s = g s) : live f s = live g s := by simp [live, h]

theorem not_framePath {P : Prop} (h : Instr.framePath i = false) : Instr.framePath i = true → P := fun h' =>
  absurd h' (by simp [h])

theorem Guarded.ofLive {f : State → State} (result : ∀ s, exec i s = .next (live f s)) (off : Instr.framePath i = false)
    (element : Instr.actsOnOne i = true → i.elements = []) : Guarded i :=
  .onDevice (live f) result (fun _ _ => live_of_reset) (not_framePath off) element

theorem Guarded.ofPath {f : State → State} (result : ∀ s, exec i s = .next (path f s))
    (element : Instr.actsOnOne i = true → i.elements = []) : Guarded i :=
  .onDevice (path f) result (fun _ _ h => path_of_stopped (.inl h)) (fun _ _ h => path_of_stopped (.inr h)) element

theorem Guarded.ofLiveOn {n k : Nat} {f : State → State} (result : ∀ s, exec i s = onRange n k s (live f))
    (off : Instr.framePath i = false) (element : i.elements.head? = some (k, n)) : Guarded i :=
  .onElement n k (live f) result (fun _ => live_of_reset) (not_framePath off) element

theorem Guarded.ofPathOn {n k : Nat} {f : State → State} (result : ∀ s, exec i s = onRange n k s (path f))
    (element : i.elements.head? = some (k, n)) : Guarded i :=
  .onElement n k (path f) result (fun _ h => path_of_stopped (.inl h)) (fun _ _ h => path_of_stopped (.inr h)) element

/-- A row that checks RESET_N itself. -/
theorem Guarded.ofOwn {f : State → State} (result : ∀ s, exec i s = .next (f s))
    (held : Instr.actsInReset i = false → ∀ s : State, s.sys.inReset = true → f s = s)
    (off : Instr.framePath i = false) (element : Instr.actsOnOne i = true → i.elements = []) : Guarded i :=
  .onDevice f result held (not_framePath off) element

theorem exec_servoInWrite (offset : BitVec 64) (s : State) : exec (.servoInWrite offset) s =
    .next (live (fun s => whenever (servoInOk s) (servoSample offset.toInt) s) s) := by
  have h : live (whenever (servoInOk s) (servoSample offset.toInt)) s =
      live (fun s => whenever (servoInOk s) (servoSample offset.toInt) s) s := live_congr rfl
  exact congrArg Host.Outcome.next h

/-- Every row has its guards. -/
theorem guarded (i : Instr) : Guarded i := by
  cases i with
  | nop | getInfo | read | write | writeMasked | writeList | readDma | commit | discardStaged | emInsert | emDelete
  | emLookup | ruleInsert | ruleDelete | objRelease | hitHarvest | learnAck | tallyReadClear | versionCommit
  | versionCommitResume | versionCommitTimeout | versionDiscard | versionPrepare | flockVersionCommit
  | flockCommitResend | recorderRead | recorderClear | faultAck | faultInject | unitReset | deviceReset
  | deviceResetBegin | identChallenge | custodySet | admitMember | collectWrite | packetDiscard | relayReplyTimeout
  | romCheckStart | romCheckDone | paceSample | avsReadPoll | avsResponse | avsNoAckTimeout | avsHoldResend
  | calendarSlotVisit | tsFifoRead | foldRecoveryDone | strayNoticeDeliver | settledSweep | reclaim
  | todSetStep | servoHoldover | trefLoss | trefLock | ppsEdge | timeRecordSend | musterTick
  | musterDumpComplete | musterChunkResend | tempHigh | tempTrip | recordClose | flashProgramDone | flashCompaction
  | flashFail | logRestore | selfTestDone | logAvailable | versionPrepareResume | versionPrepareTimeout
  | flockPrepareTimeout | collectReplyTimeout | tempHighClear => exact .ofLive (fun _ => rfl) rfl fun _ => rfl
  | todSetSet sec ns frac =>
    exact .ofLive (f := whenever (ns.toNat ≤ 999999999) (setTo sec.toNat ns.toNat frac.toNat)) (fun _ => rfl) rfl
      fun _ => rfl
  | servoInWrite offset => exact .ofLive (exec_servoInWrite offset) rfl fun _ => rfl
  | learnFilterExpiry | flashOpFail | flashPatrol | laneCalibrationDone => exact .ofLive (fun _ => rfl) rfl nofun
  | controlPipePacket | sqTailWrite | cqHeadWrite | cmdQueueEnable | cmdQueueDisable | pauseTimerExpiry | gateListChange
  | gateEntryChange | linkLoss | linkUp | debounceEnd | portFlushComplete | holdEnd | reqQuotaLimitWrite
  | polStateWrite | carveBlockJoin | promoterMove | slotExpire | slotFree | lanePowerReqWrite | laneStateReached
  | laneCalTimeout | laneTxeqWrite | laneRxeqAdaptWrite | prbsClear | flockLaneGroupEnd | amMarkerReceive
  | superframeStart | overheadBlockReceive | flockDefectDeclare | flockDefectClear | linkPageSwitch | txPageSwitch
  | rxPageSwitch | toutEdge | toutPulseEnd | timeRecordReceive | rxRingEnable | rxRingDisable | txRingDisable
  | recordDescriptorWrite | hostDmaError | vectorNotify | vectorHoldoffExpiry | vectorUnmask | shepherdChallenge
  | challengeReply | challengeTimeout | escalationExpiry | escalationTimerStop | txRingEnable | prbsLock
  | prbsLockLoss => exact .ofLiveOn (fun _ => rfl) rfl rfl
  | ringTailWrite door => cases door <;> exact .ofLiveOn (fun _ => rfl) rfl rfl
  | inbandCommandTake | foldChainCell | exportFrameFlush | hostTxFetch => exact .ofPath (fun _ => rfl) fun _ => rfl
  | ingressFrameStart | headerWindowComplete | penComplete | raceTimeout | ingressFrameEnd | flowControlFrameSend
  | flowControlRefresh | preemptVerifyTimer | preemptVerifyResponse | schedSelect | egressFrameEnd | hostRxDeliver
  | hostRingHoldExpiry | oversizeCutOff => exact .ofPathOn (fun _ => rfl) rfl
  | resetNDeassert | perstNAssert | perstNDeassert | powerLoss => exact .ofOwn (fun _ => rfl) nofun rfl fun _ => rfl
  | sbDataReceive => exact .ofOwn (fun _ => rfl) (fun _ _ h => if_pos h) rfl nofun
  | sbClaimReceive => exact .ofOwn (fun _ => rfl) (fun _ _ h => if_pos h) rfl nofun
  | sbTokenReceive | resetNAssert => exact .ofOwn (fun _ => rfl) (fun _ _ h => if_pos h) rfl fun _ => rfl
  | sbTokenTimeout =>
    exact .ofOwn (fun _ => rfl) (fun _ _ h => by simp [sbTokenTimeoutDo, h]) rfl fun _ => rfl
  | sbClaimStart => exact .ofOwn (fun _ => rfl) (fun _ _ h => by simp [sbClaimStartDo, h]) rfl fun _ => rfl
  | sbClaimSend => exact .ofOwn (fun _ => rfl) (fun _ _ h => by simp [sbClaimSendDo, claiming, h]) rfl fun _ => rfl
  | sbRingFault => exact .ofOwn (fun _ => rfl) (fun _ _ h => by simp [sbRingFaultDo, h]) rfl fun _ => rfl
  | bellwetherToggle => exact .ofOwn (fun _ => rfl) (fun _ _ h => by simp [bellwetherDo, h]) rfl fun _ => rfl
  | fusesLoaded => exact .ofOwn (fun _ => rfl) (fun _ _ h => by simp [fusesLoadedDo, h]) rfl fun _ => rfl
  | crookStart => exact .ofOwn (fun _ => rfl) (fun _ _ h => by simp [crookStartDo, h]) rfl fun _ => rfl
  | deviceReady => exact .ofOwn (fun _ => rfl) (fun _ _ h => by simp [deviceReadyDo, h]) rfl fun _ => rfl

/-- Every row answers a next state. -/
theorem exec_answers (i : Instr) (s : State) : ∃ t, exec i s = .next t := by
  cases guarded i with
  | onDevice f result => exact ⟨f s, result s⟩
  | onElement n k f result => rw [result]; exact onRange_answers n k s f

/-- A row that numbers an element that the device does not have changes nothing. -/
theorem exec_of_no_element (acts : Instr.actsOnOne i = true) {e : Nat × Nat} (he : e ∈ i.elements.head?)
    (outside : e.2 ≤ e.1) : exec i s = .next s := by
  cases guarded i with
  | onDevice f _ _ _ element => simp [element acts] at he
  | onElement n k f result _ _ element =>
    obtain rfl : (k, n) = e := by simpa [element] using he
    rw [result, onRange_none outside]

/-- While RESET_N is asserted only the rows of the reset balls and the supplies act. -/
theorem exec_of_inReset (h : s.sys.inReset = true) (rests : Instr.actsInReset i = false) : exec i s = .next s := by
  cases guarded i with
  | onDevice f result held => rw [result, held rests s h]
  | onElement n k f result held => rw [result]; simp [onRange, held s h]

/-- After a fatal fault no row of the frame path acts. -/
theorem exec_of_fatal (h : s.flt.fatal = true) (onPath : Instr.framePath i = true) : exec i s = .next s := by
  cases guarded i with
  | onDevice f result _ stopped => rw [result, stopped onPath s h]
  | onElement n k f result _ stopped => rw [result]; simp [onRange, stopped onPath s h]

end rows

end Sys2Proof.Machine

/-! The device held in reset, and the rows that begin and end it (R365). -/

namespace Sys2Proof.Machine

open Sys2Proof

section reset

variable {s t : State}

/-- What R365 says of the held device does not speak of the queue of commands. -/
theorem HeldInReset.of_pending (h : HeldInReset s) (cs : List Instr) : HeldInReset { s with pending := cs } :=
  ⟨h.asserted, h.bellwether, h.faultN, h.commands, h.frames, h.link⟩

theorem heldInReset_perstAssert (h : HeldInReset s) : HeldInReset (perstAssertDo s) := by
  unfold perstAssertDo
  split
  · exact h
  · rw [if_pos h.asserted]
    exact ⟨h.asserted, h.bellwether, h.faultN, h.commands, h.frames, h.link⟩

theorem crookUp_of_inReset (h : s.sys.inReset = true) : crookUp s = false := by simp [crookUp, h]

theorem heldInReset_perstDeassert (h : HeldInReset s) : HeldInReset (perstDeassertDo s) := by
  unfold perstDeassertDo
  split
  · exact h
  · have down : crookUp { s with sys := { s.sys with perst := false } } = false := crookUp_of_inReset h.asserted
    simp only [down, Bool.false_eq_true, if_false]
    exact ⟨h.asserted, h.bellwether, h.faultN, h.commands, h.frames, h.link⟩

theorem resetAssertDo_of_inReset (h : s.sys.inReset = true) : resetAssertDo s = s := if_pos h

/-- The fall of the supplies, RESET_N asserted before, leaves the log and the flash behind, of which R365 does not speak. -/
theorem heldInReset_powerLoss (h : HeldInReset (resetAssertDo s)) : HeldInReset (powerLossDo s) := by
  unfold powerLossDo
  dsimp only
  split <;> exact ⟨h.asserted, h.bellwether, h.faultN, h.commands, h.frames, h.link⟩

/-! ### RESET_N asserted -/

theorem pcieUp_congr {t : State} (h : t.live = s.live) : pcieUp t = pcieUp s := by
  simp only [pcieUp, State.get, State.obj, h]

@[simp] theorem cutProgram_live (s : State) : (cutProgram s).live = s.live := by
  unfold cutProgram
  split <;> rfl

/-- A link with generation 0 and no width is down. -/
theorem pcieUp_linkOff (s : State) :
    pcieUp (s.puts 0 [(F.hostStatus_LINK_GEN, 0), (F.hostStatus_LINK_WIDTH, 0)]) = false := by
  have gen : (s.puts 0 [(F.hostStatus_LINK_GEN, 0), (F.hostStatus_LINK_WIDTH, 0)]).get F.hostStatus_LINK_GEN 0 = 0 :=
    (State.get_put_field _ F.hostStatus_LINK_WIDTH F.hostStatus_LINK_GEN 0 0 rfl (by decide) (by decide)
      (by decide)).trans (State.get_put _ _ _ _ (by decide) (by decide))
  simp [pcieUp, gen]

theorem heldInReset_resetAssert (s : State) (awake : Awake s) : HeldInReset (resetAssertDo s) := by
  simp only [resetAssertDo, awake, Bool.false_eq_true, if_false]
  exact ⟨rfl, rfl, rfl, rfl, rfl, (pcieUp_congr (cutProgram_live _)).trans (pcieUp_linkOff s)⟩

/-- RESET_N asserted leads to the held device, and leaves one that is held as it is. -/
theorem heldInReset_resetAssert_of (h : Awake s ∨ HeldInReset s) : HeldInReset (resetAssertDo s) := by
  rcases h with awake | held
  · exact heldInReset_resetAssert s awake
  · rwa [resetAssertDo_of_inReset held.asserted]

/-! ### Every step but the deassertion -/

/-- Every command but the deassertion of RESET_N keeps the held device: those that act then, by their own lemmas, and all
others, which rest. -/
theorem heldInReset_exec {i : Instr} (h : HeldInReset s) (stays : ∀ role devid, i ≠ .resetNDeassert role devid)
    (ht : exec i s = .next t) : HeldInReset t := by
  have result {u : State} (hu : exec i s = .next u) (keeps : HeldInReset u) : HeldInReset t :=
    Host.Outcome.next.inj (hu.symm.trans ht) ▸ keeps
  cases acts : Instr.actsInReset i with
  | false => exact result (exec_of_inReset h.asserted acts) h
  | true =>
    cases i with
    | resetNDeassert role devid => exact absurd rfl (stays role devid)
    | perstNAssert => exact result rfl (heldInReset_perstAssert h)
    | perstNDeassert => exact result rfl (heldInReset_perstDeassert h)
    | powerLoss => exact result rfl (heldInReset_powerLoss (heldInReset_resetAssert_of (.inr h)))
    | _ => exact absurd acts Bool.false_ne_true

theorem tickDo_of_inReset (h : s.sys.inReset = true) : tickDo s = s := if_pos h

theorem step_nil (h : s.pending = []) : step s = .next (tickDo s) := by simp only [step, h]

theorem step_cons {c : Instr} {cs : List Instr} (h : s.pending = c :: cs) :
    step s = exec c { s with pending := cs } := by simp only [step, h]

end reset

/-- Settles O4: a nanosecond moves nothing while RESET_N is asserted, and every command but the deassertion keeps the held
device. -/
theorem resetHolds : Obligations.ResetHolds := by
  intro s t held stays ht
  cases hp : s.pending with
  | nil =>
    rw [step_nil hp, tickDo_of_inReset held.asserted] at ht
    exact Host.Outcome.next.inj ht ▸ held
  | cons c cs =>
    rw [step_cons hp] at ht
    exact heldInReset_exec (held.of_pending cs) (fun role devid hc => stays role devid cs (hc ▸ hp)) ht

/-- Settles O5: both rows assert RESET_N first. -/
theorem resetBegins : Obligations.ResetBegins := fun _ h =>
  have asserted := heldInReset_resetAssert_of h
  ⟨⟨_, rfl, asserted⟩, ⟨_, rfl, heldInReset_powerLoss asserted⟩⟩

/-- Settles O1. -/
theorem stepTakesTheFront : Obligations.StepTakesTheFront := fun _ _ _ => step_cons

/-- Settles O3, by the guards of every row. -/
theorem commandsComplete : Obligations.CommandsComplete := fun i s =>
  ⟨exec_answers i s, fun acts ⟨_, he, outside⟩ => exec_of_no_element acts he outside⟩

end Sys2Proof.Machine

/-! The replay window (R281). -/

namespace Sys2Proof.Machine

open Sys2Proof

theorem testBit_one_succ (k : Nat) : Nat.testBit 1 (k + 1) = false :=
  Nat.testBit_lt_two_pow (Nat.one_lt_two_pow (Nat.succ_ne_zero k))

theorem bit_eq_testBit (x i : Nat) : bit x i = x.testBit i := by
  rw [bit, Nat.testBit_eq_decide_div_mod_eq, Bool.beq_eq_decide_eq]

/-- A bit set reads 1, and every other bit as before. -/
theorem bit_setBit_true (x i j : Nat) : bit (setBit x i true) j = (decide (j = i) || bit x j) := by
  cases hbit : bit x i with
  | true =>
    by_cases hj : j = i <;> simp [setBit, hbit, hj]
  | false =>
    have hclear : x / 2 ^ i % 2 = 0 := by simpa [bit] using hbit
    have hlow : x % 2 ^ (i + 1) = x % 2 ^ i := by rw [Nat.mod_pow_succ, hclear, Nat.mul_zero, Nat.add_zero]
    have hx : x = 2 ^ (i + 1) * (x / 2 ^ (i + 1)) + x % 2 ^ i := by rw [← hlow, Nat.div_add_mod]
    have hr : x % 2 ^ i < 2 ^ i := Nat.mod_lt _ (Nat.two_pow_pos i)
    have hpow : 2 ^ (i + 1) = 2 * 2 ^ i := Nat.pow_succ'
    have hset : setBit x i true = 2 ^ (i + 1) * (x / 2 ^ (i + 1)) + (2 ^ i + x % 2 ^ i) := by
      have : setBit x i true = x + 2 ^ i := by simp [setBit, hbit]
      omega
    have hold : x.testBit j = if j < i + 1 then (x % 2 ^ i).testBit j else (x / 2 ^ (i + 1)).testBit (j - (i + 1)) := by
      conv => lhs; rw [hx]
      exact Nat.testBit_two_pow_mul_add _ (by omega) _
    rw [bit_eq_testBit, bit_eq_testBit, hset, Nat.testBit_two_pow_mul_add _ (by omega), hold]
    rcases Nat.lt_trichotomy j i with hj | rfl | hj
    · rw [if_pos (by omega), if_pos (by omega), Nat.testBit_two_pow_add_gt hj]
      simp [Nat.ne_of_lt hj]
    · simp [Nat.testBit_two_pow_add_eq, Nat.testBit_lt_two_pow hr]
    · rw [if_neg (by omega), if_neg (by omega)]
      simp [Nat.ne_of_gt hj]

/-- The run of a window that has accepted the values acc, in whatever order they came: none twice and never 0, none above its
high value, and the marks are those of the values that are not over 63 below it. -/
structure Window.Accepted (acc : List Nat) (w : Window) : Prop where
  nodup : acc.Nodup
  nonzero : 0 ∉ acc
  below : ∀ a ∈ acc, a ≤ w.high
  marks : ∀ k, k ≤ 63 → k ≤ w.high → (bit w.marks k = true ↔ w.high - k = 0 ∨ w.high - k ∈ acc)

section window

variable {acc : List Nat} {w : Window}

theorem accepted_reset : Window.Accepted [] windowReset where
  nodup := List.nodup_nil
  nonzero := List.not_mem_nil
  below := nofun
  marks k _ hk := by
    obtain rfl : k = 0 := Nat.le_zero.1 hk
    decide

/-- What a window in its run accepts: a value above the high one, and one from 63 below it on that it has not accepted. -/
theorem windowTake_isSome_iff (h : Window.Accepted acc w) {a : Nat} (ha : a < 2 ^ 63) :
    (windowTake w a).isSome = true ↔
      w.high < a ∨ (w.high ≤ a + 63 ∧ a ≤ w.high ∧ a ≠ 0 ∧ a ∉ acc) := by
  have hmod : a % 2 ^ 63 = a := Nat.mod_eq_of_lt ha
  by_cases habove : w.high < a
  · simp only [windowTake, hmod, habove, if_true, Option.isSome_some, true_or]
  · have hle : a ≤ w.high := Nat.le_of_not_lt habove
    by_cases hnear : w.high ≤ a + 63
    · have hmark := h.marks (w.high - a) (by omega) (by omega)
      rw [Nat.sub_sub_self hle] at hmark
      cases hbit : bit w.marks (w.high - a) with
      | true =>
        have := hmark.1 hbit
        simp only [windowTake, hmod, habove, hbit, if_false, Bool.not_true, Bool.and_false, Bool.false_eq_true,
          Option.isSome_none, false_or, false_iff]
        exact fun ⟨_, _, hzero, hnew⟩ => this.elim hzero hnew
      | false =>
        have := mt hmark.2 (Bool.eq_false_iff.1 hbit)
        simp only [windowTake, hmod, habove, hbit, hnear, if_false, Bool.not_false, Bool.and_true, decide_true, if_true,
          Option.isSome_some, false_or, true_iff]
        exact ⟨trivial, hle, not_or.1 this⟩
    · simp only [windowTake, hmod, habove, hnear, if_false, decide_false, Bool.false_and, Bool.false_eq_true,
        Option.isSome_none, false_and, or_self]

/-- Above its high value: the marks move up, and the values that fall out are older than 63 below the new one. -/
theorem accepted_above (h : Window.Accepted acc w) {x : Nat} (hx : w.high < x) : Window.Accepted (acc ++ [x])
    { high := x, marks := if x - w.high < 64 then (w.marks * 2 ^ (x - w.high) + 1) % 2 ^ 64 else 1 } where
  nodup := by
    have hnew : x ∉ acc := fun hmem => Nat.not_lt.2 (h.below x hmem) hx
    simpa [List.nodup_append] using ⟨h.nodup, fun a ha => fun e => hnew (e ▸ ha)⟩
  nonzero := by
    have := h.nonzero
    simp only [List.mem_append, List.mem_singleton, not_or]
    exact ⟨this, by omega⟩
  below a ha := by
    rcases List.mem_append.1 ha with ha | ha
    · exact Nat.le_of_lt (Nat.lt_of_le_of_lt (h.below a ha) hx)
    · exact Nat.le_of_eq (List.mem_singleton.1 ha)
  marks k hk (hkx : k ≤ x) := by
    have hgap (hlt : w.high < x - k) : x - k ∉ acc := fun hmem => Nat.not_lt.2 (h.below _ hmem) hlt
    simp only [List.mem_append, List.mem_singleton]
    by_cases hd : x - w.high < 64
    · rw [if_pos hd, bit_eq_testBit, Nat.testBit_mod_two_pow, Nat.mul_comm,
        Nat.testBit_two_pow_mul_add _ (Nat.one_lt_two_pow (by omega))]
      by_cases hkd : k < x - w.high
      · have := hgap (by omega)
        rw [if_pos hkd]
        cases k with
        | zero => simp
        | succ k =>
          have hne : x - (k + 1) ≠ x := by omega
          have hpos : x - (k + 1) ≠ 0 := by omega
          simp [testBit_one_succ, this, hne, hpos]
      · have := h.marks (k - (x - w.high)) (by omega) (by omega)
        rw [bit_eq_testBit, show w.high - (k - (x - w.high)) = x - k by omega] at this
        rw [if_neg hkd]
        simp only [show k < 64 by omega, decide_true, Bool.true_and, this]
        have : x - k ≠ x := by omega
        simp only [this, or_false]
    · have := hgap (by omega)
      rw [if_neg hd]
      cases k with
      | zero => simp [bit]
      | succ k =>
        have hne : x - (k + 1) ≠ x := by omega
        have hpos : x - (k + 1) ≠ 0 := by omega
        simp [bit_eq_testBit, testBit_one_succ, this, hne, hpos]

/-- At or below its high value: the mark of the value is set. -/
theorem accepted_marked (h : Window.Accepted acc w) {x : Nat} (hle : x ≤ w.high) (hnear : w.high ≤ x + 63)
    (hbit : bit w.marks (w.high - x) = false) :
    Window.Accepted (acc ++ [x]) { w with marks := setBit w.marks (w.high - x) true } := by
  have hmark := mt (h.marks (w.high - x) (by omega) (by omega)).2 (Bool.eq_false_iff.1 hbit)
  rw [Nat.sub_sub_self hle, not_or] at hmark
  obtain ⟨hzero, hnew⟩ := hmark
  constructor
  case nodup => simpa [List.nodup_append] using ⟨h.nodup, fun a ha => fun e => hnew (e ▸ ha)⟩
  case nonzero => simpa [h.nonzero] using Ne.symm hzero
  case below =>
    intro a ha
    rcases List.mem_append.1 ha with ha | ha
    · exact h.below a ha
    · exact (List.mem_singleton.1 ha).symm ▸ hle
  case marks =>
    intro k hk (hkx : k ≤ w.high)
    have hat : k = w.high - x ↔ w.high - k = x := by omega
    simp only [bit_setBit_true, Bool.or_eq_true, decide_eq_true_eq, List.mem_append, List.mem_singleton, hat,
      h.marks k hk hkx]
    exact or_comm.trans or_assoc

/-- A value that a window accepts joins those of its run. -/
theorem accepted_windowTake (h : Window.Accepted acc w) {a : Nat} {v : Window} (hv : windowTake w a = some v) :
    Window.Accepted (acc ++ [a % 2 ^ 63]) v := by
  simp only [windowTake] at hv
  split at hv
  next habove => exact Option.some.inj hv ▸ accepted_above h habove
  next habove =>
    split at hv
    next hmark =>
      simp only [Bool.and_eq_true, decide_eq_true_eq, Bool.not_eq_true'] at hmark
      exact Option.some.inj hv ▸ accepted_marked h (Nat.le_of_not_lt habove) hmark.1 hmark.2
    next => contradiction

end window

/-- The run of a window over the values that are offered to it: those that it has accepted, and the window. -/
def windowRun (x : List Nat × Window) (a : Nat) : List Nat × Window :=
  match windowTake x.2 a with
  | some w => (x.1 ++ [a % 2 ^ 63], w)
  | none => x

theorem accepted_windowRun {x : List Nat × Window} (h : Window.Accepted x.1 x.2) (a : Nat) :
    Window.Accepted (windowRun x a).1 (windowRun x a).2 := by
  unfold windowRun
  split
  next w hw => exact accepted_windowTake h hw
  next => exact h

theorem accepted_foldl_windowRun (offered : List Nat) : ∀ {x : List Nat × Window}, Window.Accepted x.1 x.2 →
    Window.Accepted (offered.foldl windowRun x).1 (offered.foldl windowRun x).2 := by
  induction offered with
  | nil => exact id
  | cons a offered ih => exact fun h => ih (accepted_windowRun h a)

/-- Settles O58, by the invariant of a window's run. -/
theorem replayWindowAcceptsOnce : Obligations.ReplayWindowAcceptsOnce := by
  intro offered
  have h : Window.Accepted (offered.foldl windowRun ([], windowReset)).1 (offered.foldl windowRun ([], windowReset)).2 :=
    accepted_foldl_windowRun offered accepted_reset
  exact ⟨h.nodup, h.nonzero, h.below, fun a => windowTake_isSome_iff h⟩

end Sys2Proof.Machine

/-! One nanosecond of the clock (R226, R233). -/

namespace Sys2Proof.Machine

open Sys2Proof

/-- The step from one state to another counts: nothing of the clock, the frames, the host memory, the trace and the objects
outside the performance counters changes. -/
structure OnlyCounts (s t : State) : Prop where
  sys : t.sys = s.sys
  time : t.time = s.time
  objects : ∀ c i, c ≠ .perfCnt → i < 2 ^ 32 → t.obj c i = s.obj c i
  staged : t.staged = s.staged
  frames : t.frames = s.frames
  hostMem : t.hostMem = s.hostMem
  out : t.out = s.out

section nanosecond

variable {s t u : State} {c : Nat}

theorem OnlyCounts.refl (s : State) : OnlyCounts s s := ⟨rfl, rfl, fun _ _ _ _ => rfl, rfl, rfl, rfl, rfl⟩

theorem OnlyCounts.trans (h : OnlyCounts s t) (h' : OnlyCounts t u) : OnlyCounts s u where
  sys := h'.sys.trans h.sys
  time := h'.time.trans h.time
  objects c i hc hi := (h'.objects c i hc hi).trans (h.objects c i hc hi)
  staged := h'.staged.trans h.staged
  frames := h'.frames.trans h.frames
  hostMem := h'.hostMem.trans h.hostMem
  out := h'.out.trans h.out

theorem onlyCounts_put (s : State) {f : Fld} (hf : f.cls = .perfCnt) (hc : c < 2 ^ 32) (x : Nat) :
    OnlyCounts s (s.put f c x) := by
  refine ⟨rfl, rfl, fun c' i hc' hi => State.obj_setObj_ne _ _ fun e => ?_, rfl, rfl, rfl, rfl⟩
  exact hc' ((oid_eq hc hi e).1.symm.trans hf)

theorem onlyCounts_addSticky (s : State) (hc : c < 2 ^ 32) (n : Nat) :
    OnlyCounts s (s.addSticky F.perfCnt_VALUE F.perfCnt_WRAPPED c n) := by
  simp only [State.addSticky]
  split
  · exact (onlyCounts_put s rfl hc _).trans (onlyCounts_put _ rfl hc _)
  · exact onlyCounts_put s rfl hc _

theorem onlyCounts_perfCount (s : State) (hc : c < 2 ^ 32) (n : Nat) : OnlyCounts s (perfCount c n s) := by
  have marked : OnlyCounts s { s with perf := insKey c s.frc s.perf } :=
    ⟨rfl, rfl, fun _ _ _ _ => rfl, rfl, rfl, rfl, rfl⟩
  unfold perfCount
  split
  · exact .refl s
  · split
    · split
      · exact .refl s
      · exact marked.trans (onlyCounts_addSticky _ hc 1)
    · exact onlyCounts_addSticky s hc n

theorem onlyCounts_levelCounts (s : State) : OnlyCounts s (levelCounts s) := by
  refine List.foldlRecOn _ _ (OnlyCounts.refl s) fun t ht c hc => ?_
  split
  · have hrow : Cls.perfSel.row.count ≤ 2 ^ 32 := by decide
    exact ht.trans (onlyCounts_perfCount t (Nat.lt_of_lt_of_le (State.mem_listed.1 hc).1 hrow) 1)
  · exact ht

end nanosecond

/-- Settles O2: the level counters come first, and the tick moves the clock alone. -/
theorem idleStepIsANanosecond : Obligations.IdleStepIsANanosecond := by
  intro s idle
  refine ⟨fun awake => ⟨tick (levelCounts s), ?_⟩, fun h => by rw [step_nil idle, tickDo_of_inReset h]⟩
  have h := onlyCounts_levelCounts s
  refine ⟨?_, ?_, ?_, h.objects, h.staged, h.frames, h.hostMem, h.out⟩
  · rw [step_nil idle, tickDo, awake]
    rfl
  · exact congrArg (·.frc + 1) h.time
  · exact congrArg (fun x : TimeSt => (((x.tod : Int) + todUnit + x.adj) % (todPeriod : Int)).toNat) h.time

end Sys2Proof.Machine

/-! Fatal faults, fences and the stores (R8, R274, R275, R329). -/

namespace Sys2Proof.Machine

open Sys2Proof

section rules

variable {s : State} {h e : Held} {r : Request} {ctx : Nat}

/-! ### What refuses a command after a fatal fault (R329) -/

/-- A command that nothing earlier refuses is answered BUSY exactly where the crook is busy for its opcode. -/
theorem verdict_of_busyFor (hd : denied h s = false) (hb : badParam h s = false) (hq : s.get F.identStatus_STATE 0 ≠ 2) :
    verdict h s = if busyFor h.req.pkt.opcode s then some stBusy else none := by
  simp [verdict, hd, hb, hq]

theorem busyFor_of_fatal (hf : s.flt.fatal = true) (op : Nat) : busyFor op s = !fatalAllows op := by simp [busyFor, hf]

theorem fatalAllows_iff (op : Nat) :
    fatalAllows op = true ↔ op ∈ [opRead, opReadDma, opGetInfo, opRecorderRead, opFaultAck, opDeviceReset] :=
  List.contains_iff_mem

/-! ### What holds a command back (R274, R275) -/

/-- An earlier command of the stream holds back one that fences, and every one where it is ORDERED itself. -/
theorem streamLets_of_before (hmem : e ∈ s.crook.held) (hn : e.n < h.n)
    (hstream : streamOf e.req.chan = streamOf h.req.chan)
    (hrule : fences h.req.pkt = true ∨ opOrdered e.req.pkt.opcode = true) : streamLets h s = false := by
  have hbefore : e ∈ s.crook.held.filter fun e => e.n < h.n && streamOf e.req.chan == streamOf h.req.chan :=
    List.mem_filter.2 ⟨hmem, by simp [hn, hstream]⟩
  simp only [streamLets, Bool.and_eq_false_iff]
  right
  split
  next => exact List.isEmpty_eq_false_iff.2 (List.ne_nil_of_mem hbefore)
  next hfree =>
    have hordered := hrule.resolve_left hfree
    exact List.all_eq_false.2 ⟨e, hbefore, by simp [letsPast, hordered]⟩

theorem startHeld_of_not_mayStart (hmay : mayStart' h s = false) (body : Body) (f : Fetch) :
    startHeld body h f s = s := by
  unfold startHeld
  split
  · rfl
  · rw [hmay]; rfl

theorem runRow_of_waiting (hw : waiting r s = some h) (body : Body) (f : Fetch) :
    runRow true body r f s = if crookUp s then startHeld body h f s else s := by
  cases hup : crookUp s <;> simp [runRow, hup, hw]

/-- A command that may start and that nothing but its fence refuses replies FENCE_BROKEN. -/
theorem startHeld_of_fenceBroken (hroom : freeContext s = some ctx) (hmay : mayStart' h s = true)
    (hadmit : admitWaits h.req.pkt s = false) (hv : verdict (h.inCtx ctx) (begun h ctx s) = none)
    (hl : lacksRoom (h.inCtx ctx) (begun h ctx s) = none) (hbroken : fenceBroken h s = true) (body : Body) :
    startHeld body h .clean s = answer h.n stFenceBroken [] (begun h ctx s) := by
  have hrun : startHeld body h .clean s = runOn body (h.inCtx ctx) true (begun h ctx s) := by
    simp only [startHeld, hroom, hmay, hadmit, hbroken, Bool.not_false, Bool.and_true, if_true]
    rfl
  simp only [hrun, runOn, hv, hl, if_true, Held.inCtx_n]

/-! ### Host memory -/

/-- Bytes written read back, up to as many as there are addresses. -/
theorem hostBytes_setHostBytes (bs : List Byte) : ∀ (s : State) (a : Nat), bs.length ≤ 2 ^ 64 →
    (s.setHostBytes a bs).hostBytes a bs.length = bs := by
  induction bs with
  | nil => exact fun _ _ _ => rfl
  | cons b bs ih =>
    intro s a hlen
    have hlen' : bs.length + 1 ≤ 2 ^ 64 := hlen
    have hfirst : ((s.setHostByte a b).setHostBytes (a + 1) bs).hostByte a = b := by
      rw [State.hostByte_setHostBytes_ne bs _ _ _ fun i hi => by omega, State.hostByte_setHostByte, if_pos rfl]
    have hrest := ih (s.setHostByte a b) (a + 1) (by omega)
    simp only [State.hostBytes, rangeFrom, List.map_map] at hrest ⊢
    rw [List.length_cons, List.range_succ_eq_map, List.map_cons, List.map_map]
    refine List.cons_eq_cons.2 ⟨hfirst, Eq.trans (List.map_congr_left fun i _ => ?_) hrest⟩
    simp only [Function.comp_apply, State.setHostBytes, Nat.succ_eq_add_one, Nat.add_assoc, Nat.add_comm 1 i]

end rules

/-- Settles O57: the rows by their guards, and the verdict by the opcode. -/
theorem fatalStopsTheDevice : Obligations.FatalStopsTheDevice := by
  refine fun s hf => ⟨fun i onPath _ => exec_of_fatal hf onPath, fun h hd hb hq => ?_⟩
  rw [verdict_of_busyFor hd hb hq, busyFor_of_fatal hf, ← fatalAllows_iff]
  exact ⟨fun allowed => by simp [allowed], fun refused => by simp [refused]⟩

/-- Settles O59: the stream holds the command back, and a broken fence ends it before its effect. -/
theorem fencesOrderStreams : Obligations.FencesOrderStreams := by
  intro body r h e s hw
  refine ⟨fun f hmem hn hstream hrule => ?_, fun ctx hup hroom hmay hadmit hv hl hfence ⟨x, hx, hxs, hxn⟩ => ?_⟩
  · have hmay : mayStart' h s = false := by rw [mayStart', streamLets_of_before hmem hn hstream hrule, Bool.false_and]
    rw [runRow_of_waiting hw, startHeld_of_not_mayStart hmay, ite_self]
  · have hbroken : fenceBroken h s = true := by
      rw [fenceBroken, hfence, Bool.true_and]
      exact List.any_eq_true.2 ⟨x, hx, by simp [hxs, hxn]⟩
    rw [runRow_of_waiting hw, if_pos hup, startHeld_of_fenceBroken hroom hmay hadmit hv hl hbroken]

/-- Settles O60: the laws of the stores, an object's identifier naming it alone. -/
theorem storesReadBack : Obligations.StoresReadBack := by
  refine ⟨⟨.nil, .nil, .nil, nofun⟩, fun s c c' i i' v hi hi' => ⟨?_, ?_, fun h =>
    ⟨canonical_setObj h c i v, canonical_setStagedObj h c i v⟩⟩, fun s a bs hlen =>
    ⟨hostBytes_setHostBytes bs s a hlen, fun b => State.hostByte_setHostBytes_ne bs s a b,
      canonical_setHostBytes bs a⟩⟩
  · split
    next same => obtain ⟨rfl, rfl⟩ := same; exact State.obj_setObj s c i v
    next other => exact State.obj_setObj_ne s v fun e => other (oid_eq hi hi' e)
  · split
    next same => obtain ⟨rfl, rfl⟩ := same; exact State.stagedObj_setStagedObj s c i v
    next other => exact State.stagedObj_setStagedObj_ne s v fun e => other (oid_eq hi hi' e)

end Sys2Proof.Machine

/-! What a command that starts finds, and how it ends: the rows of commands that act on this device (R271 to R275, R292). -/

namespace Sys2Proof.Machine

open Sys2Proof

section commands

variable {r : Request} {h : Held} {ctx op : Nat} {s t : State} {body : Body} {a : Answer}

/-! ### The state in which a command has started differs in the crook alone -/

theorem begun_eq (h : Held) (ctx : Nat) (s : State) : begun h ctx s = { s with crook := (begun h ctx s).crook } := by
  unfold begun fencePassed startIn waitsAt
  split <;> rfl

theorem State.get_congr (h : t.live = s.live) (f : Fld) (i : Nat) : t.get f i = s.get f i := by
  simp only [State.get, State.obj, h]

@[simp] theorem begun_get (h : Held) (ctx : Nat) (s : State) (f : Fld) (i : Nat) : (begun h ctx s).get f i = s.get f i :=
  State.get_congr (begun_live h ctx s) f i

@[simp] theorem begun_ver (h : Held) (ctx : Nat) (s : State) : (begun h ctx s).ver = s.ver :=
  (congrArg State.ver (begun_eq h ctx s) :)

@[simp] theorem begun_tab (h : Held) (ctx : Nat) (s : State) : (begun h ctx s).tab = s.tab :=
  (congrArg State.tab (begun_eq h ctx s) :)

@[simp] theorem begun_time (h : Held) (ctx : Nat) (s : State) : (begun h ctx s).time = s.time :=
  (congrArg State.time (begun_eq h ctx s) :)

@[simp] theorem begun_winH (h : Held) (ctx : Nat) (s : State) : (begun h ctx s).crook.winH = s.crook.winH := by
  unfold begun fencePassed startIn waitsAt
  split <;> rfl

@[simp] theorem begun_winS (h : Held) (ctx : Nat) (s : State) : (begun h ctx s).crook.winS = s.crook.winS := by
  unfold begun fencePassed startIn waitsAt
  split <;> rfl

@[simp] theorem begun_writesLeft (h : Held) (ctx : Nat) (s : State) :
    (begun h ctx s).crook.writesLeft = s.crook.writesLeft := by
  unfold begun fencePassed startIn waitsAt
  split <;> rfl

/-- The packet of the command that starts is the row's. -/
theorem Starts.pkt (st : Starts r h ctx s) : (h.inCtx ctx).req.pkt = r.pkt := (waiting_pkt st.held :)

theorem Starts.chan (st : Starts r h ctx s) : (h.inCtx ctx).req.chan = r.chan := (waiting_chan st.held :)

/-! ### The rows -/

/-- The command of a row has the effect of its body, unless its opcode has another row for it or it resets the crook. -/
theorem runRow_settles (st : Starts r h ctx s) (ho : r.pkt.opcode = op) (hc : isCollect r.pkt = false)
    (hf : isFlockCommit r.pkt s = false) (hu : r.pkt.opcode ≠ opUnitReset ∨ oidUnit r.pkt.obj ≠ 0x12) (body : Body) :
    runRow (isRow op r.pkt s) body r .clean s =
      settle h.n (begun h ctx s) (body (h.inCtx ctx) none (begun h ctx s)) := by
  rw [isRow_of st ho hc hf, runRow_starts st body hf hu]

/-- So has that of every opcode with one row that does not reset the crook. -/
theorem runRow_isRow (st : Starts r h ctx s) (ho : r.pkt.opcode = op)
    (plain : op ∉ [opWrite, opVersionCommit, opUnitReset]) (body : Body) :
    runRow (isRow op r.pkt s) body r .clean s =
      settle h.n (begun h ctx s) (body (h.inCtx ctx) none (begun h ctx s)) := by
  have other := plain
  simp only [← ho, List.mem_cons, List.not_mem_nil, or_false, not_or] at other
  obtain ⟨notWrite, notCommit, notReset⟩ := other
  exact runRow_settles st ho (not_collect notWrite) (not_flockCommit notCommit) (.inl notReset) body

theorem runRow_answers (st : Starts r h ctx s) (ho : r.pkt.opcode = op)
    (plain : op ∉ [opWrite, opVersionCommit, opUnitReset])
    (hb : body (h.inCtx ctx) none (begun h ctx s) = (some a, t)) :
    runRow (isRow op r.pkt s) body r .clean s = answered h (begun h ctx s) a t := by
  rw [runRow_isRow st ho plain, hb]
  rfl

/-- A row whose command answers. -/
theorem row_answers (st : Starts r h ctx s) (ho : r.pkt.opcode = op)
    (plain : op ∉ [opWrite, opVersionCommit, opUnitReset])
    (hb : body (h.inCtx ctx) none (begun h ctx s) = (some a, t)) :
    (.next (live (fun s => runRow (isRow op r.pkt s) body r .clean s) s) : StepResult) =
      .next (answered h (begun h ctx s) a t) := by
  rw [live_of_awake st.awake, runRow_answers st ho plain hb]

/-- A row whose command waits in its context. -/
theorem row_waits (st : Starts r h ctx s) (ho : r.pkt.opcode = op)
    (plain : op ∉ [opWrite, opVersionCommit, opUnitReset])
    (hb : body (h.inCtx ctx) none (begun h ctx s) = (none, t)) :
    (.next (live (fun s => runRow (isRow op r.pkt s) body r .clean s) s) : StepResult) =
      .next (trackLate h.n (begun h ctx s) t) := by
  rw [live_of_awake st.awake, runRow_isRow st ho plain, hb]
  rfl

@[simp] theorem onePart_none (s : State) (x : Answer × State) : onePart none s x = (some x.1, x.2) := rfl

/-- A row of one part, whose run depends on the packet alone. -/
theorem row_runs (run : Packet → State → Answer × State) (st : Starts r h ctx s) (ho : r.pkt.opcode = op)
    (plain : op ∉ [opWrite, opVersionCommit, opUnitReset]) (hr : run r.pkt (begun h ctx s) = (a, t)) :
    (.next (live (fun s => runRow (isRow op r.pkt s) (fun h l s => onePart l s (run h.req.pkt s)) r .clean s) s) :
      StepResult) = .next (answered h (begun h ctx s) a t) :=
  row_answers st ho plain (by rw [onePart_none, st.pkt, hr])

/-! ### NOP and GET_INFO -/

theorem infoWords_begun (h : Held) (ctx : Nat) (s : State) : infoWords (begun h ctx s) = infoWords s := by
  simp [infoWords, bootNonce]

/-! ### Reads (R8, R13, R129) -/

section reads

variable {c : Cls} {i k : Nat} {ws : List Word}

theorem bodyRead_of_some (ho : objectsOf h.req.pkt = some (c, i, k))
    (hr : readMany h.req.pkt.staged c k i s = (some ws, t)) : bodyRead h none s = (some (stOk, ws), t) := by
  simp only [bodyRead, ho, hr]

theorem bodyRead_of_none (ho : objectsOf h.req.pkt = some (c, i, k))
    (hr : readMany h.req.pkt.staged c k i s = (none, t)) : bodyRead h none s = (some (stAborted, []), t) := by
  simp only [bodyRead, ho, hr]

theorem bodyReadDma_of_some (ho : objectsOf h.req.pkt = some (c, i, k))
    (hr : readMany h.req.pkt.staged c k i s = (some ws, t)) : bodyReadDma h none s =
      (some (stOk, [BitVec.ofNat 64 (8 * ws.length)]), dmaWords (pw h.req.pkt 0) ws t) := by
  simp only [bodyReadDma, ho, hr]

theorem bodyReadDma_of_none (ho : objectsOf h.req.pkt = some (c, i, k))
    (hr : readMany h.req.pkt.staged c k i s = (none, t)) : bodyReadDma h none s = (some (stAborted, []), t) := by
  simp only [bodyReadDma, ho, hr]

theorem bodyHitHarvest_of_some
    (hr : readMany false .hitWord (pw h.req.pkt 0 % 2 ^ 32) (pw h.req.pkt 0 / 2 ^ 32) s = (some ws, t)) :
    bodyHitHarvest h none s =
      if pw h.req.pkt 1 = 0 then (some (stOk, ws), t) else (some (stOk, []), dmaWords (pw h.req.pkt 1) ws t) := by
  simp only [bodyHitHarvest, hr, beq_iff_eq]

theorem bodyHitHarvest_of_none
    (hr : readMany false .hitWord (pw h.req.pkt 0 % 2 ^ 32) (pw h.req.pkt 0 / 2 ^ 32) s = (none, t)) :
    bodyHitHarvest h none s = (some (stAborted, []), t) := by
  simp only [bodyHitHarvest, hr]

end reads

/-! ### Writes, and commands that span units (R277 to R279) -/

section writes

variable {c : Cls} {i k st : Nat} {ws : List (Cls × Nat × ObjVal × ObjVal)} {sts : List (Nat × Nat)} {us : List Nat}
  {check : Nat → Nat} {part : Nat → State → Nat × State}

theorem bodyWrite_eq (h : Held) (s : State) :
    bodyWrite h none s = (some ((writePart (writesOf h.req.pkt) s).1, []), (writePart (writesOf h.req.pkt) s).2) := rfl

theorem bodyWriteMasked_of_objects (ho : objectsOf h.req.pkt = some (c, i, k))
    (hw : writePart [(c, i, ofWords (h.req.pkt.params.take (objWords c)),
      ofWords ((h.req.pkt.params.drop (objWords c)).take (objWords c)))] s = (st, t)) :
    bodyWriteMasked h none s = (some (st, []), t) := by
  simp only [bodyWriteMasked, ho, limitedWrites, hw]

/-- The parts of a command without ATOMIC, or of one whose checks all pass, run in turn. -/
theorem multiRun_runs {atomic : Bool} (pass : atomic = true → ∀ u ∈ us, check u = stOk)
    (hr : runParts part us s = (sts, t)) : multiRun atomic us check part none s = (some (multiAnswer sts), t) := by
  have hpass : (atomic && us.any fun u => check u != stOk) = false := by
    cases atomic with
    | false => rfl
    | true => simpa using pass rfl
  simp only [multiRun, hpass, Bool.false_eq_true, if_false, limitTo, hr]

/-- No part of an ATOMIC command runs where a check fails. -/
theorem multiRun_fails (fails : ∃ u ∈ us, check u ≠ stOk) :
    multiRun true us check part none s = (some (failedAnswer (us.map fun u => (u, check u))), s) := by
  have hfails : (true && us.any fun u => check u != stOk) = true := by simpa using fails
  simp only [multiRun, hfails, if_true]

/-- The part of a WRITE_LIST in a unit. -/
def listPart (ws : List (Cls × Nat × ObjVal × ObjVal)) (u : Nat) (s : State) : Nat × State :=
  writePart (ws.filter fun w => w.1.row.unit == u) s

theorem bodyWriteList_eq (hl : listWrites h.req.pkt = some ws) (s : State) :
    bodyWriteList h none s = multiRun h.req.pkt.atomic (writeUnits ws)
      (lookD stOk (if h.req.pkt.atomic then listChecks ws s else [])) (listPart ws) none s := by
  simp only [bodyWriteList, hl]
  rfl

/-- What the check of a unit answers to a COMMIT. -/
def commitCheck (us : List Nat) (late : List (Nat × ObjVal)) (s : State) (u : Nat) : Nat :=
  if unitOk u us (atAcceptance late s) then stOk else stBadParam

theorem commitCheck_eq_stOk {late : List (Nat × ObjVal)} {u : Nat} :
    commitCheck us late s u = stOk ↔ unitOk u us (atAcceptance late s) = true := by
  unfold commitCheck
  split <;> simp_all [stOk, stBadParam]

theorem bodyCommit_units (hu : unitsOf' h.req.pkt = some (us, true)) (s : State) :
    bodyCommit h none s = multiRun h.req.pkt.atomic us (commitCheck us h.late s)
      (commitPart h.req.pkt.atomic h.late) none s := by
  simp only [bodyCommit, hu]
  rfl

/-- The COMMIT row, from what its body answers. -/
theorem exec_commit_answers (st : Starts r h ctx s) (ho : r.pkt.opcode = opCommit)
    (hb : bodyCommit (h.inCtx ctx) none (begun h ctx s) = (some a, t)) :
    exec (.commit r .clean) s = .next (settleLog (answered h (begun h ctx s) a t)) := by
  rw [exec_commit_of_starts st ho, hb]
  rfl

theorem bodyDiscard_units (hu : unitsOf' h.req.pkt = some (us, true)) (s : State) :
    bodyDiscard h none s = multiRun false us (fun _ => stOk) (fun u s => (stOk, discardUnit u s)) none s := by
  simp only [bodyDiscard, hu]

theorem bodyDiscard_oneUnit {u : Nat} (hu : unitsOf' h.req.pkt = some ([u], false)) (s : State) :
    bodyDiscard h none s = (some (stOk, []), discardUnit u s) := by
  simp only [bodyDiscard, hu, onePart_none, List.headD_cons]

/-- A WRITE to any class but COLLECT. -/
theorem exec_write (st : Starts r h ctx s) (ho : r.pkt.opcode = opWrite) (hc : isCollect r.pkt = false) :
    exec (.write r .clean) s = .next (settle h.n (begun h ctx s) (bodyWrite (h.inCtx ctx) none (begun h ctx s))) :=
  congrArg _ ((live_of_awake st.awake).trans (runRow_settles st ho hc (not_flockCommit (by rw [ho]; decide))
    (.inl (by rw [ho]; decide)) bodyWrite))

end writes

/-! ### Table commands (R125, R135, R140, R145, R220) -/

section tables

variable {p : Packet} {c : Cls} {i : Nat}

/-- A free rule with a key and a mask written, valid from the staged version on. -/
def ruleWritten (p : Packet) (t : State) : State :=
  let a := (clearUpset .ruleKey (ruleIdx p) t).setObj .ruleKey (ruleIdx p) (ofWords ((p.params.drop 1).take 5))
  let b := (clearUpset .ruleMask (ruleIdx p) a).setObj .ruleMask (ruleIdx p) (ofWords ((p.params.drop 6).take 5))
  ruleInsertDo (ruleIdx p) (pw p 0 % 2 ^ 22) (stagedVer b) b

theorem ruleInsertRun_of_eval (hev : evalObj .ruleCtrl (ruleIdx p) s = (t, false)) :
    ruleInsertRun p s =
      if t.on F.ruleCtrl_VALID (ruleIdx p) then ((stBusy, []), t) else ((stOk, []), ruleWritten p t) := by
  simp only [ruleInsertRun, hev, Bool.false_eq_true, if_false, ruleWritten]

theorem ruleDeleteRun_of_eval (hev : evalObj .ruleCtrl (ruleIdx p) s = (t, false)) :
    ruleDeleteRun p s =
      if ruleVisible (ruleIdx p) (stagedVer t) t then ((stOk, []), ruleRetire (ruleIdx p) (stagedVer t) t)
      else ((stNotFound, []), t) := by
  simp only [ruleDeleteRun, hev, Bool.false_eq_true, if_false]

theorem objReleaseRun_none (hd : decodeOid p.obj = some (c, i)) (hev : evalObj c i s = (t, false))
    (hr : releaseDo c i (stagedVer t) t = none) : objReleaseRun p s = ((stNotFound, []), t) := by
  simp only [objReleaseRun, hd, hev, Bool.false_eq_true, if_false, hr]

theorem objReleaseRun_some {u : State} (hd : decodeOid p.obj = some (c, i)) (hev : evalObj c i s = (t, false))
    (hr : releaseDo c i (stagedVer t) t = some u) : objReleaseRun p s = ((stOk, []), u) := by
  simp only [objReleaseRun, hd, hev, Bool.false_eq_true, if_false, hr]

/-- The pending filter without the entries of the address and FID that a LEARN_ACK names. -/
def acked (p : Packet) (fs : List FilterEntry) : List FilterEntry :=
  fs.filter fun e => !(e.addr == pw p 0 % 2 ^ 48 && e.fid == bits (pw p 0) 61 48)

theorem mem_acked {fs : List FilterEntry} {e : FilterEntry} :
    e ∈ acked p fs ↔ e ∈ fs ∧ ¬(e.addr = pw p 0 % 2 ^ 48 ∧ e.fid = bits (pw p 0) 61 48) := by
  simp [acked, Decidable.imp_iff_not_or]

theorem learnAckRun_of_mem (hm : ∃ e ∈ s.tab.filter, e.addr = pw p 0 % 2 ^ 48 ∧ e.fid = bits (pw p 0) 61 48) :
    learnAckRun p s = ((stOk, []), { s with tab := { s.tab with filter := acked p s.tab.filter } }) := by
  have hany : (s.tab.filter.any fun e => e.addr == pw p 0 % 2 ^ 48 && e.fid == bits (pw p 0) 61 48) = true := by
    simpa using hm
  simp only [learnAckRun, hany, if_true, acked]

end tables

/-! ### Version commands (R161, R162, R361) -/

@[simp] theorem stagedVer_begun (h : Held) (ctx : Nat) (s : State) : stagedVer (begun h ctx s) = stagedVer s :=
  begun_get ..

@[simp] theorem expectDiffers_begun (p : Packet) (h : Held) (ctx : Nat) (s : State) :
    expectDiffers p (begun h ctx s) = expectDiffers p s := by simp only [expectDiffers, stagedVer_begun]

section versions

theorem bodyVersionCommit_differs (hd : expectDiffers h.req.pkt s = true) :
    bodyVersionCommit h none s = (some (stVersionConflict, []), s) := if_pos hd

theorem bodyVersionCommit_now (hd : expectDiffers h.req.pkt s = false)
    (now : s.ver.prepared.isSome = true ∨ commitReady s = true) :
    bodyVersionCommit h none s = (some (stOk, [BitVec.ofNat 64 (commitSlot s * 2 ^ 16 + stagedVer s)]),
      commitNow (commitSlot s) s) := by
  simp only [bodyVersionCommit, hd, Bool.false_eq_true, if_false, Bool.or_eq_true, now, if_true, onePart_none,
    commitAnswer]

theorem bodyVersionCommit_waits (hd : expectDiffers h.req.pkt s = false) (hp : s.ver.prepared = none)
    (hr : commitReady s = false) : bodyVersionCommit h none s = (none, startWait (some h.n) false h.frc s) := by
  simp [bodyVersionCommit, hd, hp, hr]

theorem bodyVersionDiscard_eq (h : Held) (s : State) : bodyVersionDiscard h none s =
    if expectDiffers h.req.pkt s then (some (stVersionConflict, []), s) else (some (stOk, []), discardNow s) := rfl

theorem bodyVersionPrepare_differs (hd : expectDiffers h.req.pkt s = true) :
    bodyVersionPrepare h none s = (some (stVersionConflict, []), s) := if_pos hd

theorem bodyVersionPrepare_busy (hd : expectDiffers h.req.pkt s = false) (hp : s.ver.prepared.isSome = true) :
    bodyVersionPrepare h none s = (some (stBusy, []), s) := by
  simp only [bodyVersionPrepare, hd, hp, Bool.false_eq_true, if_false, if_true]

theorem bodyVersionPrepare_now (hd : expectDiffers h.req.pkt s = false) (hp : s.ver.prepared = none)
    (hr : commitReady s = true) : bodyVersionPrepare h none s = (some (stOk, []), prepareNow s) := by
  simp [bodyVersionPrepare, hd, hp, hr]

theorem bodyVersionPrepare_waits (hd : expectDiffers h.req.pkt s = false) (hp : s.ver.prepared = none)
    (hr : commitReady s = false) : bodyVersionPrepare h none s = (none, startWait (some h.n) true h.frc s) := by
  simp [bodyVersionPrepare, hd, hp, hr]

theorem trackLate_startWait (n : Nat) (who : Option Nat) (prepare : Bool) (frc : Nat) (s : State) :
    trackLate n s (startWait who prepare frc s) = startWait who prepare frc s := trackLate_of_staged rfl

/-- A VERSION_COMMIT on the device that executes it. -/
theorem exec_versionCommit (st : Starts r h ctx s) (ho : r.pkt.opcode = opVersionCommit)
    (hf : isFlockCommit r.pkt s = false) :
    exec (.versionCommit r .clean) s =
      .next (settle h.n (begun h ctx s) (bodyVersionCommit (h.inCtx ctx) none (begun h ctx s))) :=
  congrArg _ ((live_of_awake st.awake).trans (runRow_settles st ho (not_collect (by rw [ho]; decide)) hf
    (.inl (by rw [ho]; decide)) bodyVersionCommit))

end versions

/-! ### The recorder and the fault unit (R324, R327, R336, R338) -/

section recorder

variable {p : Packet}

theorem recorderReadRun_none (hr : readLog (pw p 0 % 2 ^ 32) (pw p 1 % 256) (closedLog s) = none) :
    recorderReadRun p s = ((stNotFound, []), closedLog s) := by
  simp only [recorderReadRun, hr]

theorem recorderReadRun_some {rs : List Rec} (hr : readLog (pw p 0 % 2 ^ 32) (pw p 1 % 256) (closedLog s) = some rs)
    (hev : evalRecords (pw p 0 % 2 ^ 32) rs.length (closedLog s) = (t, false)) :
    recorderReadRun p s = ((stOk, recorderWords rs (closedLog s)), t) := by
  simp only [recorderReadRun, hr, hev, Bool.false_eq_true, if_false]

theorem exec_recorderClear (st : Starts r h ctx s) (ho : r.pkt.opcode = opRecorderClear) :
    exec (.recorderClear r .clean) s =
      .next (settleLog (trackLate h.n (begun h ctx s) (clearStart h.n (begun h ctx s)))) := by
  calc exec (.recorderClear r .clean) s
      = .next (live (fun s => settleLog (runRow (isRow opRecorderClear r.pkt s) bodyRecorderClear r .clean s)) s) := rfl
    _ = _ := by rw [live_of_awake st.awake, runRow_isRow st ho (by decide)]; rfl

theorem faultAckRun_undefined (hs : srcDefined (pw p 0 % 65536) = false) :
    faultAckRun p s = ((stBadParam, []), s) := by
  simp only [faultAckRun, hs, Bool.not_false, if_true]

theorem faultAckRun_some (hs : srcDefined (pw p 0 % 65536) = true) (ha : faultAckDo (pw p 0 % 65536) s = some t) :
    faultAckRun p s = ((stOk, []), t) := by
  simp only [faultAckRun, hs, Bool.not_true, Bool.false_eq_true, if_false, ha]

theorem faultAckRun_none (hs : srcDefined (pw p 0 % 65536) = true) (ha : faultAckDo (pw p 0 % 65536) s = none) :
    faultAckRun p s = ((stNotFound, []), s) := by
  simp only [faultAckRun, hs, Bool.not_true, Bool.false_eq_true, if_false, ha]

theorem faultInjectRun_ok (hi : faultInjectDo (bits (pw p 0) 47 16) (pw p 0 % 65536) s = .ok t) :
    faultInjectRun p s = ((stOk, []), t) := by
  simp only [faultInjectRun, hi]

theorem faultInjectRun_error {b : Bool} (hi : faultInjectDo (bits (pw p 0) 47 16) (pw p 0 % 65536) s = .error b) :
    faultInjectRun p s = ((if b then stBadParam else stBusy, []), s) := by
  cases b <;> simp only [faultInjectRun, hi, Bool.false_eq_true, if_false, if_true]

end recorder

end commands

/-- Settles O7: both are of one part and leave the state. -/
theorem nopAndGetInfoAnswer : Obligations.NopAndGetInfoAnswer := fun _ h ctx s st =>
  ⟨fun ho => row_runs (fun p s => ((stOk, p.params), s)) st ho (by decide) rfl,
    fun ho => row_runs (fun _ s => ((stOk, infoWords s), s)) st ho (by decide) (by rw [infoWords_begun]; rfl)⟩

/-- Settles O8: each by what its reads give. -/
theorem readsAnswerWords : Obligations.ReadsAnswerWords := by
  intro r h ctx s t c i k ws st
  simp only [← st.pkt]
  have ho {op : Nat} (ho : (h.inCtx ctx).req.pkt.opcode = op) : r.pkt.opcode = op := st.pkt ▸ ho
  refine ⟨fun hop hobj => ⟨fun hr => ?_, fun hr => ?_⟩, fun hop hobj => ⟨fun hr => ?_, fun hr => ?_⟩,
    fun hop => ⟨fun hr => ?_, fun hr => ?_⟩⟩
  · exact row_answers st (ho hop) (by decide) (bodyRead_of_some hobj hr)
  · exact row_answers st (ho hop) (by decide) (bodyRead_of_none hobj hr)
  · exact row_answers st (ho hop) (by decide) (bodyReadDma_of_some hobj hr)
  · exact row_answers st (ho hop) (by decide) (bodyReadDma_of_none hobj hr)
  · have hb := bodyHitHarvest_of_some hr
    split at hb
    next inReply => rw [if_pos inReply]; exact row_answers st (ho hop) (by decide) hb
    next inMemory => rw [if_neg inMemory]; exact row_answers st (ho hop) (by decide) hb
  · exact row_answers st (ho hop) (by decide) (bodyHitHarvest_of_none hr)

/-- Settles O9: one write part for WRITE and WRITE_MASKED, one for each unit of a WRITE_LIST. -/
theorem writesTakeEffect : Obligations.WritesTakeEffect := by
  intro r h ctx s t st starts
  have hp := starts.pkt
  refine ⟨fun ho hc hw => ?write, fun c i k ho hobj hw => ?masked, fun ws sts ho hl =>
    ⟨fun plain hr => ?list, fun atomic fails => ?fails, fun atomic pass hr => ?atomic⟩⟩
  case write =>
    rw [exec_write starts ho hc, bodyWrite_eq, hp, hw]
    rfl
  case masked =>
    exact row_answers starts ho (by decide) (bodyWriteMasked_of_objects (hp ▸ hobj) (hp ▸ hw))
  case list =>
    refine row_answers starts ho (by decide) ?_
    rw [bodyWriteList_eq (hp ▸ hl), hp, plain]
    exact multiRun_runs nofun hr
  case fails =>
    refine row_answers starts ho (by decide) ?_
    rw [bodyWriteList_eq (hp ▸ hl), hp, atomic]
    exact multiRun_fails (by simpa using fails)
  case atomic =>
    refine row_answers starts ho (by decide) ?_
    rw [bodyWriteList_eq (hp ▸ hl), hp, atomic]
    exact multiRun_runs (fun _ => pass) hr

/-- Settles O10: the parts of a COMMIT by the check of their units, those of a DISCARD_STAGED without one. -/
theorem commitAndDiscardTakeEffect : Obligations.CommitAndDiscardTakeEffect := by
  intro r h ctx s t us sts st
  have hp := st.pkt
  refine ⟨fun u ho hu => ?one, fun ho hu plain hr => ?parts, fun ho hu atomic fails => ?fails,
    fun ho hu atomic pass hr => ?atomic, fun u ho hu => ?discardOne, fun ho hu hr => ?discard⟩
  case one =>
    rw [exec_commit_oneUnit st ho hu]
    cases hok : unitOk u [u] (atAcceptance h.late (begun h ctx s)) <;> simp [commitUnit, hok]
  case parts =>
    refine exec_commit_answers st ho ?_
    rw [bodyCommit_units (hp ▸ hu), hp, plain]
    exact multiRun_runs nofun hr
  case fails =>
    refine exec_commit_answers st ho ?_
    rw [bodyCommit_units (hp ▸ hu), hp, atomic]
    exact multiRun_fails
      (fails.imp fun u ⟨hmem, hbad⟩ => ⟨hmem, mt commitCheck_eq_stOk.1 (Bool.eq_false_iff.1 hbad)⟩)
  case atomic =>
    refine exec_commit_answers st ho ?_
    rw [bodyCommit_units (hp ▸ hu), hp, atomic]
    exact multiRun_runs (fun _ u hmem => commitCheck_eq_stOk.2 (pass u hmem)) hr
  case discardOne => exact row_answers st ho (by decide) (bodyDiscard_oneUnit (hp ▸ hu) _)
  case discard =>
    refine row_answers st ho (by decide) ?_
    rw [bodyDiscard_units (hp ▸ hu)]
    exact multiRun_runs nofun hr

/-- Settles O11: the runs of the three commands, once for each outcome. -/
theorem emCommandsTakeEffect : Obligations.EmCommandsTakeEffect := by
  intro r h ctx s t u loc e status st hok hev
  refine ⟨fun ho => ⟨fun hi hf => ?_, fun hi => ?_⟩, fun ho => ⟨fun hf => ?_, fun hf => ?_⟩,
    fun ho h4 => ⟨fun hf => ?_, fun hf => ?_⟩⟩
  · exact row_runs emInsertRun st ho (by decide) (emInsertRun_ok hok hev hi hf)
  · exact row_runs emInsertRun st ho (by decide) (emInsertRun_error hok hev hi)
  · exact row_runs emDeleteRun st ho (by decide) (emDeleteRun_found hok hev hf)
  · exact row_runs emDeleteRun st ho (by decide) (emDeleteRun_none hok hev hf)
  · exact row_runs emLookupRun st ho (by decide) (emLookupRun_found hok hev h4 hf)
  · exact row_runs emLookupRun st ho (by decide) (emLookupRun_none hok hev h4 hf)

/-- Settles O12: each run by the words that it evaluates first. -/
theorem tableCommandsTakeEffect : Obligations.TableCommandsTakeEffect := by
  intro r h ctx s t st
  refine ⟨fun ho hev => ?ruleInsert, fun ho hev => ?ruleDelete, fun c i ho hd hev => ⟨fun hr => ?absent,
    fun u hr => ?released⟩, fun ho hm => ?learnAck, fun loc e ho hv hk hev hf => ?tally⟩
  case ruleInsert =>
    have hr := ruleInsertRun_of_eval hev
    split at hr
    next valid => rw [if_pos valid]; exact row_runs ruleInsertRun st ho (by decide) hr
    next free => rw [if_neg free]; exact row_runs ruleInsertRun st ho (by decide) hr
  case ruleDelete =>
    have hr := ruleDeleteRun_of_eval hev
    split at hr
    next visible => rw [if_pos visible]; exact row_runs ruleDeleteRun st ho (by decide) hr
    next hidden => rw [if_neg hidden]; exact row_runs ruleDeleteRun st ho (by decide) hr
  case absent => exact row_runs objReleaseRun st ho (by decide) (objReleaseRun_none hd hev hr)
  case released => exact row_runs objReleaseRun st ho (by decide) (objReleaseRun_some hd hev hr)
  case learnAck =>
    have hm' : ∃ e ∈ (begun h ctx s).tab.filter, e.addr = pw r.pkt 0 % 2 ^ 48 ∧ e.fid = bits (pw r.pkt 0) 61 48 := by
      rwa [begun_tab]
    refine ⟨_, row_runs learnAckRun st ho (by decide) (learnAckRun_of_mem hm'), fun e => ?_⟩
    rw [begun_tab]
    exact mem_acked
  case tally => exact row_runs tallyReadClearRun st ho (by decide) (tallyReadClearRun_found hv hk hev hf)

/-- Settles O13: the branches of the three bodies, in their order. -/
theorem versionCommandsTakeEffect : Obligations.VersionCommandsTakeEffect := by
  intro r h ctx s st
  have hp := st.pkt
  refine ⟨fun differs => ?differs, fun agrees => ?agrees⟩
  case differs =>
    have hd : expectDiffers (h.inCtx ctx).req.pkt (begun h ctx s) = true := by rw [hp, expectDiffers_begun, differs]
    refine ⟨fun ho hf => ?commit, fun ho => ?discard, fun ho => ?prepare⟩
    case commit =>
      rw [exec_versionCommit st ho hf, bodyVersionCommit_differs hd]
      rfl
    case discard => exact row_answers st ho (by decide) ((bodyVersionDiscard_eq _ _).trans (if_pos hd))
    case prepare => exact row_answers st ho (by decide) (bodyVersionPrepare_differs hd)
  case agrees =>
    have hd : expectDiffers (h.inCtx ctx).req.pkt (begun h ctx s) = false := by rw [hp, expectDiffers_begun, agrees]
    have hver : (begun h ctx s).ver = s.ver := begun_ver ..
    refine ⟨fun ho hf now => ?commit, fun ho hf hn hr => ?commitWaits, fun ho => ?discard, fun ho hb => ?busy,
      fun ho hn hr => ?prepare, fun ho hn hr => ?prepareWaits⟩
    case commit =>
      rw [exec_versionCommit st ho hf, bodyVersionCommit_now hd (hver ▸ now), stagedVer_begun]
      rfl
    case commitWaits =>
      rw [exec_versionCommit st ho hf, bodyVersionCommit_waits hd (hver ▸ hn) hr, settle_none, trackLate_startWait]
      rfl
    case discard => exact row_answers st ho (by decide) ((bodyVersionDiscard_eq _ _).trans (if_neg (by rw [hd]; decide)))
    case busy => exact row_answers st ho (by decide) (bodyVersionPrepare_busy hd (hver ▸ hb))
    case prepare => exact row_answers st ho (by decide) (bodyVersionPrepare_now hd (hver ▸ hn) hr)
    case prepareWaits =>
      refine (row_waits st ho (by decide) (bodyVersionPrepare_waits hd (hver ▸ hn) hr)).trans ?_
      rw [trackLate_startWait]
      rfl

/-- Settles O14: the runs of the four commands, once for each outcome. -/
theorem recorderAndFaultCommandsTakeEffect : Obligations.RecorderAndFaultCommandsTakeEffect := by
  intro r h ctx s t rs st
  refine ⟨fun ho => ⟨fun hr => ?_, fun hr hev => ?_⟩, exec_recorderClear st,
    fun ho => ⟨fun hs => ?_, fun hs ha => ?_, fun hs ha => ?_⟩, fun ho => ⟨fun hi => ?_, fun b hi => ?_⟩⟩
  · exact row_runs recorderReadRun st ho (by decide) (recorderReadRun_none hr)
  · exact row_runs recorderReadRun st ho (by decide) (recorderReadRun_some hr hev)
  · exact row_runs faultAckRun st ho (by decide) (faultAckRun_undefined hs)
  · exact row_runs faultAckRun st ho (by decide) (faultAckRun_some hs ha)
  · exact row_runs faultAckRun st ho (by decide) (faultAckRun_none hs ha)
  · exact row_runs faultInjectRun st ho (by decide) (faultInjectRun_ok hi)
  · exact row_runs faultInjectRun st ho (by decide) (faultInjectRun_error hi)

end Sys2Proof.Machine

/-! UNIT_RESET, DEVICE_RESET, the identity, custody, ADMIT and COLLECT (R326, R352, R356, R358, R360, R376). -/

namespace Sys2Proof.Machine

open Sys2Proof

section identity

variable {r : Request} {h : Held} {ctx : Nat} {s t : State} {body : Body}

/-- An event of an awake device has its effect. -/
theorem next_live {f : State → State} (awake : Awake s) (hf : f s = t) : (.next (live f s) : StepResult) = .next t := by
  rw [live_of_awake awake, hf]

/-! ### UNIT_RESET (R326) -/

/-- No other UNIT_RESET of the unit is in progress. -/
def ResetsAlone (h : Held) (s : State) : Prop :=
  ∀ e ∈ resetsHeld s, e.n = h.n ∨ oidUnit e.req.pkt.obj ≠ oidUnit h.req.pkt.obj

theorem otherResets_eq_nil (alone : ResetsAlone h s) :
    ((resetsHeld s).filter fun e => e.n != h.n && oidUnit e.req.pkt.obj == oidUnit h.req.pkt.obj) = [] := by
  refine List.filter_eq_nil_iff.2 fun e he => ?_
  rcases alone e he with same | other
  · simp [same]
  · simp [other]

theorem bodyUnitReset_alone (alone : ResetsAlone h s) (hu : oidUnit h.req.pkt.obj ≠ 0x12) :
    bodyUnitReset h none s =
      if resetRuns h.req.pkt (unitResetDo (oidUnit h.req.pkt.obj) (h.req.pkt.obj % 2 ^ 32) s) then
        (none, unitResetDo (oidUnit h.req.pkt.obj) (h.req.pkt.obj % 2 ^ 32) s)
      else (some (stOk, []), unitResetDo (oidUnit h.req.pkt.obj) (h.req.pkt.obj % 2 ^ 32) s) := by
  simp only [bodyUnitReset, otherResets_eq_nil alone, List.foldl_nil, beq_iff_eq, hu, if_false, Option.isNone_none,
    Bool.true_and]

theorem resetRuns_crook {p : Packet} (hu : oidUnit p.obj = 0x12) (s : State) : resetRuns p s = false := by
  simp only [resetRuns, hu]

theorem bodyUnitReset_crook (alone : ResetsAlone h s) (hu : oidUnit h.req.pkt.obj = 0x12) :
    bodyUnitReset h none s = (some (stOk, []), s) := by
  have others := otherResets_eq_nil alone
  rw [hu] at others
  simp only [bodyUnitReset, hu, others, List.foldl_nil, beq_self_eq_true, if_true, resetRuns_crook hu, Bool.and_false,
    Bool.false_eq_true, if_false]

/-- A command that starts runs on from the state in which it has taken its context. -/
theorem runRow_runsOn (st : Starts r h ctx s) (body : Body) :
    runRow true body r .clean s = runOn body (h.inCtx ctx) false (begun h ctx s) := by
  simp only [runRow, st.up, st.held, startHeld, st.room, st.order, st.admitted, st.unbroken, Bool.not_true,
    Bool.or_false, Bool.not_false, Bool.and_true, if_true, Bool.false_eq_true, if_false]
  exact runStarted_clean ..

/-- UNIT_RESET of the crook acts on the other contexts after its own reply. -/
theorem runOn_resetsCrook (hv : verdict h s = none) (hl : lacksRoom h s = none) (hr : resetsCrook h.req.pkt s = true) :
    runOn body h false s = crookReset (some h.n) (settle h.n s (ownEffect body h none s)) := by
  simp only [runOn, hv, hl, hr, Bool.false_eq_true, if_false, if_true]

/-- A command of this device alone has the effect of its body. -/
theorem ownEffect_alone (st : Starts r h ctx s) (hf : isFlockCommit r.pkt s = false) (body : Body) :
    ownEffect body (h.inCtx ctx) none (begun h ctx s) = body (h.inCtx ctx) none (begun h ctx s) := by
  have mine := st.mine
  have hf' : isFlockCommit h.req.pkt (begun h ctx s) = false := by rw [isFlockCommit_begun, waiting_pkt st.held, hf]
  have alone := st.alone.resolve_left (by rw [hf']; decide)
  simp only [ownEffect, Held.inCtx_req, mine, hf', alone, Bool.false_eq_true, if_false]

theorem isRow_unitReset (st : Starts r h ctx s) (ho : r.pkt.opcode = opUnitReset) :
    isRow opUnitReset r.pkt s = true :=
  isRow_of st ho (not_collect (by rw [ho]; decide)) (not_flockCommit (by rw [ho]; decide))

theorem exec_unitReset_crook (st : Starts r h ctx s) (ho : r.pkt.opcode = opUnitReset)
    (hu : oidUnit r.pkt.obj = 0x12) (alone : ResetsAlone (h.inCtx ctx) (begun h ctx s)) :
    exec (.unitReset r .clean) s =
      .next (crookReset (some h.n) (answered h (begun h ctx s) (stOk, []) (begun h ctx s))) := by
  have hp := st.pkt
  have mine : elsewhere r.pkt (begun h ctx s) = false := hp ▸ st.mine
  have hr : resetsCrook (h.inCtx ctx).req.pkt (begun h ctx s) = true := by
    rw [hp, resetsCrook, ho, hu, mine]
    rfl
  refine next_live st.awake ?_
  rw [isRow_unitReset st ho, runRow_runsOn st, runOn_resetsCrook st.allowed st.fits hr,
    ownEffect_alone st (not_flockCommit (by rw [ho]; decide)), bodyUnitReset_crook alone (hp ▸ hu)]
  rfl

theorem exec_unitReset_other (st : Starts r h ctx s) (ho : r.pkt.opcode = opUnitReset)
    (hu : oidUnit r.pkt.obj ≠ 0x12) :
    exec (.unitReset r .clean) s =
      .next (settle h.n (begun h ctx s) (bodyUnitReset (h.inCtx ctx) none (begun h ctx s))) :=
  congrArg _ ((live_of_awake st.awake).trans (runRow_settles st ho (not_collect (by rw [ho]; decide))
    (not_flockCommit (by rw [ho]; decide)) (.inr hu) bodyUnitReset))

/-! ### DEVICE_RESET and CUSTODY_SET (R352, R376) -/

theorem exec_deviceReset (st : Starts r h ctx s) (ho : r.pkt.opcode = opDeviceReset) :
    exec (.deviceReset r .clean) s =
      .next (settleLog (settle h.n (begun h ctx s) (bodyDeviceReset (h.inCtx ctx) none (begun h ctx s)))) := by
  calc exec (.deviceReset r .clean) s
      = .next (live (fun s => settleLog (runRow (isRow opDeviceReset r.pkt s) bodyDeviceReset r .clean s)) s) := rfl
    _ = _ := by rw [live_of_awake st.awake, runRow_isRow st ho (by decide)]

theorem custodySetRun_none (hw : s.crook.writesLeft = 0) (p : Packet) : custodySetRun p s = ((stNoSpace, []), s) :=
  if_pos (beq_iff_eq.2 hw)

theorem custodySetRun_some (hw : s.crook.writesLeft ≠ 0) (p : Packet) : custodySetRun p s = ((stOk, []),
    recPlain 0x53 0 0 { s with crook := { s.crook with
      secret := some ((p.params.take 4).foldl (fun x w => x * 2 ^ 64 + w.toNat) 0),
      writesLeft := s.crook.writesLeft - 1 } }) :=
  if_neg (mt beq_iff_eq.1 hw)

/-! ### ADMIT (R358) -/

theorem bodyAdmit_worker (hrole : s.get F.roleCfg_ROLE 0 = 1) :
    bodyAdmit h none s = (some (admitWorker h.req.chan h.req.pkt s).1, (admitWorker h.req.chan h.req.pkt s).2) := by
  simp only [bodyAdmit, hrole, onePart_none]

theorem bodyAdmit_shepherd (hrole : s.get F.roleCfg_ROLE 0 = 2) :
    bodyAdmit h none s = admitShepherdDo h.n h.req.pkt s := by
  simp only [bodyAdmit, hrole, Option.isSome_none, Bool.false_eq_true, if_false]

variable {p : Packet} {n : Nat}

theorem admitWorker_other {ch : Channel} (hd : admitDev p ≠ s.sys.devid) :
    admitWorker ch p s = ((stBadParam, []), s) := if_pos (bne_iff_ne.2 hd)

theorem admitWorker_takes {o : Nat} (hd : admitDev p = s.sys.devid) (hm : admitMode p = 0) :
    admitWorker (.flock o) p s = ((stOk, []),
      (s.puts 0 [(F.identStatus_SHEPHERD_ID, admitShepherd p), (F.identStatus_CTRL_OCTET, o)]).puts 0
        [(F.identStatus_STATE, 1), (F.identStatus_CAUSE, 0)]) := by
  unfold admitWorker
  rw [if_neg (by simp [hd])]
  dsimp only
  rw [if_pos (beq_iff_eq.2 hm)]

theorem admitWorker_quarantines {o : Nat} (hd : admitDev p = s.sys.devid) (hm : admitMode p = 1) :
    admitWorker (.flock o) p s = ((stOk, []),
      (s.puts 0 [(F.identStatus_SHEPHERD_ID, admitShepherd p), (F.identStatus_CTRL_OCTET, o)]).puts 0
        [(F.identStatus_STATE, 2), (F.identStatus_CAUSE, admitCause p)]) := by
  unfold admitWorker
  rw [if_neg (by simp [hd])]
  dsimp only
  rw [if_neg (by rw [hm]; decide), if_pos (beq_iff_eq.2 hm)]

section shepherd

variable (hd : admitDev p ≠ s.sys.devid) (hs : memberState (admitDev p) s ≠ 0)
include hd hs

theorem admitShepherdDo_admits (hm : admitMode p = 0) :
    admitShepherdDo n p s = (none,
      (let d := admitDev p
       let t := s.puts d [(F.manifest_SERIAL, s.get F.memberDev_OBS_SERIAL d),
         (F.manifest_KEY_FP, s.get F.memberDev_OBS_FP d), (F.manifest_VALID, 1)]
       let u := if t.get F.memberDev_CAUSE d = 6 then t.put F.memberDev_CAUSE d 0 else t
       recPlain 0x52 d 0 (sendAdmit d 0 0 (some n) false u))) := by
  simp only [admitShepherdDo, hm, hd, hs, beq_iff_eq, Nat.reduceBEq, Bool.false_or, Bool.false_eq_true, if_true, if_false]

theorem admitShepherdDo_quarantines (hm : admitMode p = 1) :
    admitShepherdDo n p s = (none, quarantineDev (admitDev p) 6 (some n) s) := by
  simp only [admitShepherdDo, hm, hd, hs, beq_iff_eq, Nat.reduceBEq, Bool.false_or, Bool.false_eq_true, if_true, if_false]

theorem admitShepherdDo_removes (hm : admitMode p = 2) :
    admitShepherdDo n p s = (none, setMemberState (admitDev p) 0
      ((sendAdmit (admitDev p) 1 6 (some n) false s).put F.memberDev_CAUSE (admitDev p) 0)) := by
  simp only [admitShepherdDo, hm, hd, hs, beq_iff_eq, Nat.reduceBEq, Bool.false_or, Bool.false_eq_true, if_false]

end shepherd

/-! ### COLLECT (R360) -/

@[simp] theorem memberState_begun (d : Nat) (h : Held) (ctx : Nat) (s : State) :
    memberState d (begun h ctx s) = memberState d s := begun_get ..

theorem collectRun_denied (hm : memberState p.orig s ≠ 2) : collectRun p s = ((stDenied, []), s) := by
  simp [collectRun, hm]

theorem collectRun_notice (hm : memberState p.orig s = 2) (hi : p.obj % 2 ^ 32 = 0)
    (hroom : s.tab.notices.length < 4096) : collectRun p s = ((stOk, []),
      { s with tab := { s.tab with notices := s.tab.notices ++ [noticeOf (p.params.drop 1)] } }) := by
  simp only [collectRun, hm, hi, hroom, bne_self_eq_false, Bool.false_eq_true, beq_self_eq_true, if_true, if_false]

theorem collectRun_pages (hm : memberState p.orig s = 2) (hi : p.obj % 2 ^ 32 ≠ 0) :
    collectRun p s =
      if s.get F.roleCfg_MUSTER_PAGES 0 * 4096 < (pw p 0 % 2 ^ 32 + (p.params.drop 1).length) * 8 then
        ((stNoSpace, []), s)
      else ((stOk, []), dmaWords (s.get F.roleCfg_MUSTER_ADDR 0 + p.orig * (s.get F.roleCfg_MUSTER_PAGES 0 * 4096) +
        pw p 0 % 2 ^ 32 * 8) (p.params.drop 1) s) := by
  simp only [collectRun, hm, hi, bne_self_eq_false, Bool.false_eq_true, beq_iff_eq, if_false]

theorem opcode_of_isCollect (hc : isCollect p = true) : p.opcode = opWrite := by
  simp only [isCollect, Bool.and_eq_true, beq_iff_eq] at hc
  exact hc.1

/-- A WRITE to COLLECT answers what its run does. -/
theorem exec_collectWrite (st : Starts r h ctx s) (hc : isCollect r.pkt = true) {a : Answer}
    (hr : collectRun r.pkt (begun h ctx s) = (a, t)) :
    exec (.collectWrite r .clean) s = .next (answered h (begun h ctx s) a t) := by
  have ho := opcode_of_isCollect hc
  have hrow : (!r.pkt.isReply && isCollect r.pkt) = true := by rw [st.request, hc]; rfl
  refine next_live st.awake ?_
  rw [hrow, runRow_starts st bodyCollect (not_flockCommit (by rw [ho]; decide)) (.inl (by rw [ho]; decide)),
    bodyCollect, onePart_none, st.pkt, hr]
  rfl

end identity

/-- Settles O15: UNIT_RESET by its unit, the others by their runs. -/
theorem unitAndIdentityCommandsTakeEffect : Obligations.UnitAndIdentityCommandsTakeEffect := by
  intro r h ctx s st
  have hp := st.pkt
  refine ⟨fun ho => ⟨fun hu alone => ?unit, fun hu alone => ?crook⟩, fun ho => ?device, fun ho => ?challenge,
    fun ho => ⟨fun hw => ?spent, fun hw => ?custody⟩⟩
  case unit =>
    have hb := bodyUnitReset_alone (h := h.inCtx ctx) (s := begun h ctx s) (by rw [ResetsAlone, hp]; exact alone)
      (by rwa [hp])
    rw [hp] at hb
    rw [exec_unitReset_other st ho hu, hb]
    split <;> rfl
  case crook => exact exec_unitReset_crook st ho hu (by rw [ResetsAlone, hp, hu]; exact alone)
  case device => exact exec_deviceReset st ho
  case challenge =>
    exact row_runs (fun p s => ((stOk, challengeWords (p.params.take 4) s), s)) st ho (by decide) rfl
  case spent =>
    exact row_runs custodySetRun st ho (by decide) (custodySetRun_none (by rwa [begun_writesLeft]) _)
  case custody =>
    refine row_runs custodySetRun st ho (by decide) ?_
    rw [custodySetRun_some (by rwa [begun_writesLeft]), begun_writesLeft]

/-- Settles O16: the worker's branch by the device and the MODE, the shepherd's by the MODE. -/
theorem admitTakesEffect : Obligations.AdmitTakesEffect := by
  intro r h ctx s st ho
  have hp := st.pkt
  have hsys : (begun h ctx s).sys = s.sys := begun_sys ..
  have role {k : Nat} (hk : s.get F.roleCfg_ROLE 0 = k) : (begun h ctx s).get F.roleCfg_ROLE 0 = k := by
    rw [begun_get, hk]
  refine ⟨fun hrole hd => ?other, fun o hrole hd hch => ⟨fun hm => ?takes, fun hm => ?quarantined⟩,
    fun hrole hd hs => ⟨fun hm => ?admits, fun hm => ?quarantines, fun hm => ?removes⟩⟩
  case other =>
    refine row_answers st ho (by decide) ((bodyAdmit_worker (role hrole)).trans ?_)
    rw [hp, admitWorker_other (hsys ▸ hd)]
  case takes =>
    refine row_answers st ho (by decide) ((bodyAdmit_worker (role hrole)).trans ?_)
    rw [st.chan, hch, hp, admitWorker_takes (hsys ▸ hd) hm]
  case quarantined =>
    refine row_answers st ho (by decide) ((bodyAdmit_worker (role hrole)).trans ?_)
    rw [st.chan, hch, hp, admitWorker_quarantines (hsys ▸ hd) hm]
  all_goals
    have hs' : memberState (admitDev r.pkt) (begun h ctx s) ≠ 0 := by rwa [memberState_begun]
    refine row_waits st ho (by decide) ((bodyAdmit_shepherd (role hrole)).trans ?_)
    rw [hp, Held.inCtx_n]
  case admits => exact admitShepherdDo_admits (hsys ▸ hd) hs' hm
  case quarantines => exact admitShepherdDo_quarantines (hsys ▸ hd) hs' hm
  case removes => exact admitShepherdDo_removes (hsys ▸ hd) hs' hm

/-- Settles O17: the run of a COLLECT write, once for each outcome. -/
theorem collectWriteTakesEffect : Obligations.CollectWriteTakesEffect := by
  intro r h ctx s st hc
  refine ⟨fun hm => ?denied, fun hm hi hroom => ?notice, fun hm hi => ?pages⟩
  case denied => exact exec_collectWrite st hc (collectRun_denied (by rwa [memberState_begun]))
  case notice =>
    refine (exec_collectWrite st hc (collectRun_notice (by rwa [memberState_begun]) hi (by rwa [begun_tab]))).trans ?_
    rw [begun_tab]
  case pages =>
    have hr := collectRun_pages (p := r.pkt) (s := begun h ctx s) (by rwa [memberState_begun]) hi
    rw [begun_get, begun_get] at hr
    split at hr
    next full => rw [if_pos full]; exact exec_collectWrite st hc hr
    next fits => rw [if_neg fits]; exact exec_collectWrite st hc hr

end Sys2Proof.Machine

/-! Version commits that wait, the flock-wide commit, and what brings packets to the crook (R161, R271, R283, R285, R353 to
R355, R361, R362). -/

namespace Sys2Proof.Machine

open Sys2Proof

section queues

variable {s : State}

/-! ### Waits for a version commit or prepare (R161, R361) -/

section waits

variable {n d : Nat} {who : Option Nat}

/-- The commit of the staged version that a waiting command makes as it ends. -/
def waitedCommit (n : Nat) (s : State) : State :=
  settleOwn n stOk [BitVec.ofNat 64 (commitSlot s * 2 ^ 16 + stagedVer s)] (commitNow (commitSlot s) (endWait s))

theorem commitResumeDo_of_wait (hw : s.ver.wait = some { who := some n, prepare := false, deadline := d }) :
    commitResumeDo s = if commitReady s then waitedCommit n s else s := by
  simp only [commitResumeDo, hw]
  rfl

theorem commitTimeoutDo_of_wait (hw : s.ver.wait = some { who := some n, prepare := false, deadline := d }) :
    commitTimeoutDo s =
      if s.frc < d then s
      else if commitReady s then commitResumeDo s
      else settleOwn n stBusy [] ((endWait s).inc F.versionStatus_BUSY 0) := by
  simp only [commitTimeoutDo, hw]

theorem prepareResumeDo_of_wait (hw : s.ver.wait = some { who, prepare := true, deadline := d }) :
    prepareResumeDo s = if commitReady s then prepareEnd who true (prepareNow (endWait s)) else s := by
  simp only [prepareResumeDo, hw]

theorem prepareTimeoutDo_of_wait (hw : s.ver.wait = some { who, prepare := true, deadline := d }) :
    prepareTimeoutDo s =
      if s.frc < d then s
      else if commitReady s then prepareResumeDo s
      else prepareEnd who false (endWait s) := by
  simp only [prepareTimeoutDo, hw]

end waits

/-! ### The flock-wide version commit (R362) -/

section flock

variable {c : FlockCommit}

/-- The devices that have not answered count as failed. -/
def FlockCommit.failOpen (c : FlockCommit) : FlockCommit := { c with bad := c.bad ++ flockOpen c }

theorem flockOpen_failOpen (c : FlockCommit) : flockOpen c.failOpen = [] := by
  refine List.filter_eq_nil_iff.2 fun d hd => ?_
  by_cases hopen : d ∈ flockOpen c
  · simp [FlockCommit.failOpen, hopen]
  · have answered : d ∈ c.ok ∨ d ∈ c.bad := by
      simpa [flockOpen, show d ∈ c.members from hd, Decidable.or_iff_not_imp_left] using hopen
    rcases answered with hok | hbad
    · simp [FlockCommit.failOpen, hok]
    · simp [FlockCommit.failOpen, hbad]

theorem flockStep_discards {c : FlockCommit} (hc : s.mgmt.commit = some c) (hopen : flockOpen c = []) (hp : c.phase = 0)
    (hbad : c.bad ≠ []) : flockStep s = flockDiscardAll c s := by
  simp [flockStep, hc, hopen, hp, hbad]

theorem flockPrepareTimeoutDo_due (hc : s.mgmt.commit = some c) (hopen : flockOpen c ≠ []) (hp : c.phase = 0)
    (hd : c.deadline ≤ s.frc) :
    flockPrepareTimeoutDo s = flockDiscardAll c.failOpen (setCommit (some c.failOpen) s) := by
  have hbad : c.failOpen.bad ≠ [] := by simp [FlockCommit.failOpen, hopen]
  have hstep : flockPrepareTimeoutDo s = flockStep (setCommit (some c.failOpen) s) := by
    have due : (c.phase == 0 && decide (c.deadline ≤ s.frc)) = true := by simp [hp, hd]
    simp only [flockPrepareTimeoutDo, hc, due, if_true]
    rfl
  rw [hstep, flockStep_discards (c := c.failOpen) rfl (flockOpen_failOpen c) hp hbad]

theorem flockStep_open (hc : s.mgmt.commit = some c) (hopen : flockOpen c ≠ []) : flockStep s = s := by
  simp [flockStep, hc, hopen]

theorem flockResendDo_due (hc : s.mgmt.commit = some c) (hopen : flockOpen c ≠ []) (hp : c.phase = 1)
    (hn : c.nextSend ≤ s.frc) (hm : ∀ d ∈ flockOpen c, memberState d s = 2) :
    flockResendDo s = setCommit (some { c with nextSend := s.frc + 1000000 })
      (sendAll (flockOpen c) (versionRequest opVersionCommit tagCommit (flockExpect c s)) s) := by
  have hgone : (flockOpen c).filter (fun d => memberState d s != 2) = [] :=
    List.filter_eq_nil_iff.2 fun d hd => by simp [hm d hd]
  have hstep : flockResendDo s = flockStep (setCommit (some { c with nextSend := s.frc + 1000000 })
      (sendAll (flockOpen c) (versionRequest opVersionCommit tagCommit (flockExpect c s)) s)) := by
    simp only [flockResendDo, hc, hp, hgone, List.append_nil, Nat.not_lt.2 hn, bne_self_eq_false, decide_false,
      Bool.or_self, Bool.false_eq_true, if_false]
    rfl
  rw [hstep]
  exact flockStep_open rfl hopen

end flock

section start

variable {r : Request} {h : Held} {ctx : Nat}

theorem opcode_of_isFlockCommit {p : Packet} (hf : isFlockCommit p s = true) : p.opcode = opVersionCommit := by
  simp only [isFlockCommit, Bool.and_eq_true, beq_iff_eq] at hf
  exact hf.1.1.1.1

theorem flockStart_eq (h : Held) (s : State) : flockStart h s =
    (let v := (expectOf h.req.pkt).getD (stagedVer s)
     let c : FlockCommit :=
       ⟨h.n, 0, some v, s.sys.devid :: h.members, [], [], commitDeadline s.frc s + relayWait s, 0⟩
     flockOwnPrepare c (sendAll h.members (versionRequest opVersionPrepare tagPrepare v) (setCommit (some c) s))) := by
  simp only [flockStart, flockExpect, Option.getD_some]

/-- A flock-wide commit that starts sends its prepares and waits. -/
theorem exec_flockVersionCommit (st : Starts r h ctx s) (hf : isFlockCommit r.pkt s = true) :
    exec (.flockVersionCommit r .clean) s =
      .next (trackLate h.n (begun h ctx s) (flockStart (h.inCtx ctx) (begun h ctx s))) := by
  have hrow : (!r.pkt.isReply && isFlockCommit r.pkt s) = true := by rw [st.request, hf]; rfl
  have hf' : isFlockCommit (h.inCtx ctx).req.pkt (begun h ctx s) = true := by rw [isFlockCommit_begun, st.pkt, hf]
  have mine : elsewhere (h.inCtx ctx).req.pkt (begun h ctx s) = false := st.mine
  have hr : resetsCrook (h.inCtx ctx).req.pkt (begun h ctx s) = false := by
    rw [st.pkt, resetsCrook, opcode_of_isFlockCommit hf]
    rfl
  refine next_live st.awake ?_
  rw [hrow, runRow_runsOn st, runOn_allowed st.allowed st.fits hr]
  simp only [ownEffect, mine, hf', Bool.false_eq_true, if_false, if_true, Option.isSome_none, settle_none,
    Held.inCtx_n]

end start

/-! ### Packets that are discarded (R271) -/

section packets

variable {ch : Channel} {bytes : List Byte} {p : Packet} {b : Bool}

theorem packetDiscardDo_of_discards (hup : crookUp s = true) (hd : discards bytes s = true) (hch : ∀ o, ch ≠ .flock o) :
    packetDiscardDo ch bytes s = intake ch bytes s := by
  cases ch with
  | flock o => exact absurd rfl (hch o)
  | _ => simp only [packetDiscardDo, hup, hd, Bool.not_true, Bool.or_self, Bool.false_eq_true, if_false]

theorem intake_error (hp : parsePacket bytes = .error b) :
    intake ch bytes s = malformed ch (some (if b then stBadOpcode else stBadParam)) s := by
  cases b <;> simp only [intake, hp, Bool.false_eq_true, if_false, if_true]

theorem intake_request (hp : parsePacket bytes = .ok p) (hr : p.isReply = false) :
    intake ch bytes s = takeIn ch p s := by
  simp only [intake, hp, hr, Bool.false_eq_true, if_false]

theorem discards_error (hp : parsePacket bytes = .error b) : discards bytes s = true := by
  simp only [discards, hp]

theorem packetDiscardDo_pipe {o : Nat} (hup : crookUp s = true) (hp : parsePacket bytes = .error b) :
    packetDiscardDo (.flock o) bytes s = if channelHears o 2 s then s.inc F.cmdStatus_MALFORMED 0 else s := by
  have hpipe : packetDiscardDo (.flock o) bytes s = whenever (channelHears o 2 s) (intake (.flock o) bytes) s := by
    simp only [packetDiscardDo, hup, discards_error hp, hp, Bool.not_true, Bool.or_self, Bool.false_eq_true, if_false]
  rw [hpipe, whenever, intake_error hp]
  rfl

theorem takeIn_wrongTrailer (ht : checkTrailer p s = none) :
    takeIn ch p s = recPlain 0x30 (p.opcode % 2 ^ 16 * 2 ^ 16 + chanCode ch) (p.aseq % 2 ^ 32)
      (s.inc F.cmdStatus_AUTH_FAIL 0) := by
  simp only [takeIn, ht]
  rfl

end packets

/-! ### Control pipes and relays (R261, R263, R353 to R355) -/

section pipes

variable {o : Nat} {bytes : List Byte} {p : Packet} {e : Bool}

theorem controlPacketDo_unheard (hc : channelHears o 2 s = false) : controlPacketDo o bytes e s = s := by
  simp [controlPacketDo, hc]

theorem controlPacketDo_bad (hl : hearsLoop (octetLanes o) s = false) (bad : e = true ∨ fcsGood bytes = false) :
    controlPacketDo o bytes e s = s := by
  have hframe : controlFrame o bytes e s = s := by rcases bad with h | h <;> simp [controlFrame, h]
  simp [controlPacketDo, hl, hframe]

theorem controlPacketDo_good (hc : channelHears o 2 s = true) (hl : hearsLoop (octetLanes o) s = false)
    (hline : hearsLine (octetLanes o) s = true) (hfcs : fcsGood bytes = true) :
    controlPacketDo o bytes false s = controlPacket o (bytes.take (bytes.length - 4)) s := by
  simp [controlPacketDo, hc, hl, hline, controlFrame, hfcs]

theorem controlPacket_own (hup : crookUp s = true) (hp : parsePacket bytes = .ok p)
    (hrole : s.get F.roleCfg_ROLE 0 ≠ 1) (hr : p.isReply = false) :
    controlPacket o bytes s = if heldFull s then
      { s with crook := { s.crook with ctrl := s.crook.ctrl ++ [(o, bytes)] } } else takeIn (.flock o) p s := by
  simp [controlPacket, hup, hp, hrole, hr, pipeToCrook, intake_request hp hr]

theorem controlPacket_relays (hup : crookUp s = true) (hp : parsePacket bytes = .ok p)
    (hrole : s.get F.roleCfg_ROLE 0 = 1) (hr : p.isReply = false) (hv : p.v2 = true) (hrel : p.relayed = true)
    (hd : p.dst ≠ s.sys.devid) : controlPacket o bytes s = forwardTo p.dst bytes s := by
  simp [controlPacket, hup, hp, hrole, workerPacket, hr, hv, hrel, hd]

theorem controlPacket_reply (hup : crookUp s = true) (hp : parsePacket bytes = .ok p)
    (hrole : s.get F.roleCfg_ROLE 0 = 1) (hr : p.isReply = true) (hv : (p.v2 && p.upstream) = false) :
    controlPacket o bytes s = controlOut (s.get F.identStatus_CTRL_OCTET 0) bytes s := by
  simp only [controlPacket, hup, hp, hrole, workerPacket, hr, hv, Bool.not_true, Bool.false_eq_true, beq_self_eq_true,
    if_true, if_false]

/-- The reply that a relay without an answer gets, and the state without the relay. -/
def relayLost (r : Relay) (s : State) : Packet × State :=
  let a := replyPacket (r.pkt.setFlag 9 false) stTimeout [] s
  (a.1.setFlag 9 false, dropRelay r a.2)

theorem relayTimeoutDo_early {k : Nat} {r : Relay} (hk : s.mgmt.relays[k]? = some r) (hd : s.frc < r.deadline) :
    relayTimeoutDo k s = s := by
  simp [relayTimeoutDo, hk, hd]

theorem relayTimeoutDo_due {k : Nat} {r : Relay} (hk : s.mgmt.relays[k]? = some r) (hd : r.deadline ≤ s.frc) :
    relayTimeoutDo k s =
      if (relayLost r s).2.mgmt.bcasts.any (·.n == r.n) then
        bcastChange r.n (fun b => { b with got := b.got ++ [(r.dst, (relayLost r s).1)] }) (relayLost r s).2
      else crookPump (sendHeld r.n (relayLost r s).1.status [(relayLost r s).1] (relayLost r s).2) := by
  simp only [relayTimeoutDo, hk, Nat.not_lt.2 hd, if_false]
  rfl

end pipes

/-! ### Command queues (R283, R285) -/

section rings

@[simp] theorem hostSoftware_live (mem : List HostWrite) (s : State) : (hostSoftware mem s).live = s.live :=
  List.foldlRecOn mem _ (motive := fun t : State => t.live = s.live) rfl fun _ ht _ _ =>
    (State.setHostBytes_live _ _ _).trans ht

@[simp] theorem hostSoftware_crook (mem : List HostWrite) (s : State) : (hostSoftware mem s).crook = s.crook :=
  List.foldlRecOn mem _ (motive := fun t : State => t.crook = s.crook) rfl fun _ ht _ _ =>
    (State.setHostBytes_crook _ _ _).trans ht

theorem hostSoftware_cmdq (mem : List HostWrite) (q : Nat) (s : State) : (hostSoftware mem s).cmdq q = s.cmdq q := by
  simp only [State.cmdq, hostSoftware_crook]

theorem pcieUp_hostSoftware (mem : List HostWrite) (s : State) : pcieUp (hostSoftware mem s) = pcieUp s :=
  pcieUp_congr (hostSoftware_live mem s)

variable {q n : Nat} (up : pcieUp s = true)
include up

theorem sqTailDo_inside (mem : List HostWrite) (hn : n < 2 ^ (s.cmdq q).sqLog2) :
    sqTailDo q n mem s =
      (let t := (hostSoftware mem s).setCmdq q { s.cmdq q with sqTail := n }
       fetchAll (sqWaiting q t) q t) := by
  simp only [sqTailDo, pcieUp_hostSoftware, up, hostSoftware_cmdq, Nat.not_le.2 hn, Bool.not_true, decide_false,
    Bool.or_self, Bool.false_eq_true, if_false]

theorem cqHeadDo_inside (hn : n < 2 ^ (s.cmdq q).cqLog2) :
    cqHeadDo q n s = drainDone (s.cmdq q).done.length q (s.setCmdq q { s.cmdq q with cqHead := n }) := by
  simp only [cqHeadDo, up, Nat.not_le.2 hn, Bool.not_true, decide_false, Bool.or_self, Bool.false_eq_true, if_false]

theorem queueEnableDo_idle {sqBase cqBase : BitVec 64} {sqLog2 cqLog2 : BitVec 4} (off : (s.cmdq q).enable = false)
    (idle : cmdQuiesced q s = true) (hsq : sqBase.toNat % 64 = 0) (hcq : cqBase.toNat % 64 = 0)
    (hsl : 4 ≤ sqLog2.toNat ∧ sqLog2.toNat ≤ 12) (hcl : 4 ≤ cqLog2.toNat ∧ cqLog2.toNat ≤ 12) :
    queueEnableDo q sqBase cqBase sqLog2 cqLog2 s = s.setCmdq q
      ⟨sqBase.toNat, cqBase.toNat, true, sqLog2.toNat, cqLog2.toNat, 0, 0, 0, 0, true, (s.cmdq q).done⟩ := by
  simp [queueEnableDo, queueRegs, up, off, idle, hsq, hcq, hsl, hcl]

omit up in
theorem queueDisableDo_on (on : (s.cmdq q).enable = true) :
    queueDisableDo q s = crookPump ((s.crook.held.filter fun h => streamOf h.req.chan == q && h.ctx.isNone).foldl
      (fun s h => completeHeld h.n stAborted 0 s) (s.setCmdq q { s.cmdq q with enable := false })) := by
  simp only [queueDisableDo, on, Bool.not_true, Bool.false_eq_true, if_false]
  rfl

end rings

end queues

/-- Settles O18: a wait by its kind, its condition and its deadline. -/
theorem versionWaitsEnd : Obligations.VersionWaitsEnd := by
  intro s d awake
  refine ⟨fun n hw => ?commit, fun who hw => ?prepare⟩
  case commit =>
    refine ⟨fun hr => next_live awake ?_, fun hr => next_live awake ?_, fun hd hr => next_live awake ?_,
      fun hd hr => next_live awake ?_, fun hd => next_live awake ?_⟩
    · rw [commitResumeDo_of_wait hw, if_pos hr]; rfl
    · rw [commitResumeDo_of_wait hw, if_neg (Bool.eq_false_iff.1 hr)]
    · rw [commitTimeoutDo_of_wait hw, if_neg (Nat.not_lt.2 hd), if_pos hr, commitResumeDo_of_wait hw, if_pos hr]; rfl
    · rw [commitTimeoutDo_of_wait hw, if_neg (Nat.not_lt.2 hd), if_neg (Bool.eq_false_iff.1 hr)]
    · rw [commitTimeoutDo_of_wait hw, if_pos hd]
  case prepare =>
    refine ⟨fun hr => next_live awake ?_, fun hr => next_live awake ?_, fun hd hr => next_live awake ?_,
      fun hd hr => next_live awake ?_, fun hd => next_live awake ?_⟩
    · rw [prepareResumeDo_of_wait hw, if_pos hr]; rfl
    · rw [prepareResumeDo_of_wait hw, if_neg (Bool.eq_false_iff.1 hr)]
    · rw [prepareTimeoutDo_of_wait hw, if_neg (Nat.not_lt.2 hd), if_pos hr, prepareResumeDo_of_wait hw, if_pos hr]; rfl
    · rw [prepareTimeoutDo_of_wait hw, if_neg (Nat.not_lt.2 hd), if_neg (Bool.eq_false_iff.1 hr)]; rfl
    · rw [prepareTimeoutDo_of_wait hw, if_pos hd]

/-- Settles O19: the start, and what the two timers of a commit do while devices have not answered. -/
theorem flockCommitGoesOn : Obligations.FlockCommitGoesOn := by
  refine ⟨fun r h ctx s st hf => ?start, fun s c awake hc hopen => ⟨fun hp hd => ?timeout, fun hp hn hm => ?resend⟩⟩
  case start => rw [exec_flockVersionCommit st hf, flockStart_eq, st.pkt, Held.inCtx_n, Held.inCtx_members]
  case timeout => exact next_live awake (flockPrepareTimeoutDo_due hc hopen hp hd)
  case resend => exact next_live awake (flockResendDo_due hc hopen hp hn hm)

/-- Settles O20: a packet that cannot be read, by a control pipe or otherwise, and a wrong trailer. -/
theorem packetsAreDiscarded : Obligations.PacketsAreDiscarded := by
  refine fun ch bytes s awake hup => ⟨fun b hp => ⟨fun hch => next_live awake ?_, fun o ho => next_live awake ?_⟩,
    fun p hp hr ht hch => next_live awake ?_⟩
  · rw [packetDiscardDo_of_discards hup (discards_error hp) hch, intake_error hp]
  · rw [ho, packetDiscardDo_pipe hup hp]
  · have hd : discards bytes s = true := by simp [discards, hp, ht]
    rw [packetDiscardDo_of_discards hup hd hch, intake_request hp hr, takeIn_wrongTrailer ht]

/-- An event of an element of an awake device has its effect. -/
theorem onRange_live {s t : State} {f : State → State} {n i : Nat} (awake : Awake s) (hi : i < n) (hf : f s = t) :
    onRange n i s (live f) = .next t :=
  (onRange_next hi).trans (next_live awake hf)

/-- Settles O21: a frame of a control pipe by what the octet hears and the role, a relay by its deadline. -/
theorem controlPipesAndRelays : Obligations.ControlPipesAndRelays := by
  refine ⟨fun o bytes s awake ho => ⟨fun hc e => onRange_live awake ho (controlPacketDo_unheard hc),
    fun hl => ⟨fun hf e => onRange_live awake ho (controlPacketDo_bad hl (.inr hf)),
      onRange_live awake ho (controlPacketDo_bad hl (.inl rfl))⟩,
    fun p hc hl hline hf hup hp => ?good⟩, fun k r s awake hk =>
    ⟨fun hd => next_live awake (relayTimeoutDo_early hk hd), fun hd hb => next_live awake ?_,
      fun hd hb => next_live awake ?_⟩⟩
  case good =>
    have hgood := controlPacketDo_good hc hl hline hf
    exact ⟨fun hrole hr => onRange_live awake ho (hgood.trans (controlPacket_own hup hp hrole hr)),
      fun hrole hr hv hrel hd => onRange_live awake ho (hgood.trans (controlPacket_relays hup hp hrole hr hv hrel hd)),
      fun hrole hr hv => onRange_live awake ho (hgood.trans (controlPacket_reply hup hp hrole hr hv))⟩
  · exact (relayTimeoutDo_due hk hd).trans (if_neg (Bool.eq_false_iff.1 hb))
  · exact (relayTimeoutDo_due hk hd).trans (if_pos hb)

/-- Settles O22: each row of a queue with its link up. -/
theorem commandQueuesWork : Obligations.CommandQueuesWork := by
  refine fun q n s awake hq up => ⟨fun mem hn => ?tail, fun hn => ?head,
    fun sqBase cqBase sqLog2 cqLog2 off idle hsq hcq hs1 hs2 hc1 hc2 => ?enable, fun on => ?disable⟩
  case tail => exact onRange_live awake hq (sqTailDo_inside up mem hn)
  case head => exact onRange_live awake hq (cqHeadDo_inside up hn)
  case enable => exact onRange_live awake hq (queueEnableDo_idle up off idle hsq hcq ⟨hs1, hs2⟩ ⟨hc1, hc2⟩)
  case disable => exact onRange_live awake hq (queueDisableDo_on on)

end Sys2Proof.Machine

/-! In-band command frames, the sideband station with SB_EN 1, and the control store (R276, R286, R288, R289, R309, R312,
R314). -/

namespace Sys2Proof.Machine

open Sys2Proof

section inband

variable {s u : State} {t : Nat} {f : Frame}

/-! ### In-band command frames (R276, R286) -/

@[simp] theorem unhold_id (f : Frame) (s : State) : (unhold f s).1.id = f.id := by
  unfold unhold
  split <;> rfl

theorem State.frame_dropFrame (s : State) (id : Nat) : (s.dropFrame id).frame id = none := by
  simp [State.frame, State.dropFrame]

/-- A frame that has ended is no longer in the fold. -/
theorem frame_finish (f : Frame) (st reason egLength : Nat) (s : State) :
    (finish f st reason egLength s).frame f.id = none := by
  unfold finish
  dsimp only
  rw [unhold_id]
  exact State.frame_dropFrame _ _

/-- The in-band command frame that is selected leaves its queue and the fold. -/
def inbandEnded (t : Nat) (f : Frame) (u : State) : State :=
  let k := takeSelected 1026 t true f u
  let e := unstore k.1 k.2
  finish e.1 tmConsumed 0 0 (correctSent 1026 e.1 f.bytes.length e.2)

theorem frame_inbandEnded (t : Nat) (f : Frame) (u : State) : (inbandEnded t f u).frame f.id = none :=
  frame_finish (unstore (takeSelected 1026 t true f u).1 _).1 _ _ _ _

theorem inbandTakeDo_stays (hsel : select 1026 true s = some (t, f)) (stays : heldFull s = true ∨ f.ended = false) :
    inbandTakeDo s = s := by
  rcases stays with full | going
  · simp [inbandTakeDo, full]
  · simp [inbandTakeDo, hsel, going]

theorem inbandTakeDo_takes (hup : crookUp s = true) (hsel : select 1026 true s = some (t, f)) (room : heldFull s = false)
    (whole : f.ended = true) {bad : Bool} (hw : takeWords 1026 t f s = (u, bad)) :
    inbandTakeDo s = if bad then pump (dropQueued f drEcc u)
      else pump (intake (inbandChannel f) (inbandPacket f) (inbandEnded t f u)) := by
  simp only [inbandTakeDo, room, hup, hsel, whole, hw, Bool.not_true, Bool.or_self, Bool.false_eq_true, if_false]
  rfl

end inband

/-- Settles O23: the branches of the take, and the end of the frame. -/
theorem inbandFramesAreTaken : Obligations.InbandFramesAreTaken := by
  intro s t f awake hup hsel
  have hpath {v : State} (h : inbandTakeDo s = v) : exec .inbandCommandTake s = .next v :=
    congrArg Host.Outcome.next ((path_of_awake awake).trans h)
  refine ⟨fun stays => hpath (inbandTakeDo_stays hsel stays), fun room whole => ⟨fun u hw => hpath ?_, fun u hw =>
    ⟨hpath ?_, frame_inbandEnded t f u⟩⟩⟩
  · exact (inbandTakeDo_takes hup hsel room whole hw).trans (if_pos rfl)
  · exact (inbandTakeDo_takes hup hsel room whole hw).trans (if_neg Bool.false_ne_true)

section station

variable {s : State}

/-! ### The sideband station with SB_EN 1 (R288, R289) -/

@[simp] theorem clearLevel_crook (src inst : Nat) (s : State) : (clearLevel src inst s).crook = s.crook := by
  simp only [clearLevel]
  split <;> rfl

@[simp] theorem setSbState_crook (st : Nat) (s : State) : (setSbState st s).crook = s.crook := by
  simp only [setSbState]
  split
  · exact clearLevel_crook ..
  · rfl

/-- The use of a token: the next frame goes, or the token goes on. -/
theorem useToken_eq (mon : Bool) (s : State) : useToken mon s =
    match s.crook.sb.out with
    | [] => s.emit (.sbToken s.crook.sb.gen (mon || sbMonitor s))
    | o :: rest => (s.onSb fun b => { b with out := rest, flying := some o }).emit
        (.sbData false o.dst s.sys.devid o.bytes false false) := rfl

theorem landed_none (hf : s.crook.sb.flying = none) (copied : Bool) : landed copied s = s := by
  simp only [landed, hf]

theorem landed_copied {o : SbOut} (hf : s.crook.sb.flying = some o) :
    landed true s = s.onSb fun b => { b with flying := none } := by
  simp only [landed, hf, if_true]

/-- A member that a token reaches. -/
def tokenSeen (gen : BitVec 8) (s : State) : State :=
  (setSbState 1 s).onSb fun b => { b with gen := gen, lastToken := (setSbState 1 s).frc }

@[simp] theorem tokenSeen_gen (gen : BitVec 8) (s : State) : (tokenSeen gen s).crook.sb.gen = gen := rfl

@[simp] theorem tokenSeen_flying (gen : BitVec 8) (s : State) :
    (tokenSeen gen s).crook.sb.flying = s.crook.sb.flying := by
  simp [tokenSeen, State.onSb]

variable (awake : Awake s) (on : sbOn s = true)
include awake on

theorem sbTokenDo_member (member : sbMonitor s = false) (idle : s.crook.sb.flying = none) (gen : BitVec 8) (mon : Bool) :
    sbTokenDo gen mon s = useToken mon (tokenSeen gen s) := by
  have hland : landed false (tokenSeen gen s) = tokenSeen gen s := landed_none (by rw [tokenSeen_flying, idle]) _
  simp only [sbTokenDo, awake, on, member, Bool.not_true, Bool.false_and, Bool.false_eq_true, if_false]
  exact congrArg _ hland

theorem sbDataDo_takes (member : sbMonitor s = false) {d : SbData} (hsrc : d.src ≠ s.sys.devid)
    (hdst : d.dst = s.sys.devid) (hcrc : d.crcOk = true) : sbDataDo d s = sbTake d s := by
  simp [sbDataDo, awake, on, member, hsrc, hdst, hcrc]

theorem sbDataDo_own {d : SbData} {o : SbOut} (hsrc : d.src = s.sys.devid) (hc : d.c = true)
    (hf : s.crook.sb.flying = some o) :
    sbDataDo d s = sendToken ((s.onSb fun b => { b with flying := none }).onSb fun b =>
      { b with lastToken := s.frc }) := by
  simp [sbDataDo, awake, on, hsrc, hc, hf, landed_copied hf]

theorem sbClaimDo_lower {src : Nat} (hlow : src < s.sys.devid) :
    sbClaimDo src true s =
      (((setSbState 1 s).put F.cmdStatus_SB_MONITOR 0 src).onSb fun b =>
        { b with lastToken := ((setSbState 1 s).put F.cmdStatus_SB_MONITOR 0 src).frc }).emit (.sbClaim src) := by
  simp [sbClaimDo, awake, on, hlow, Nat.ne_of_lt hlow]

theorem sbClaimDo_own (member : sbMonitor s = false) : sbClaimDo s.sys.devid true s = becomeMonitor s := by
  simp [sbClaimDo, awake, on, member]

theorem sbTokenTimeoutDo_monitor (monitor : sbMonitor s = true) (htoken : s.crook.sb.lastToken + 20000000 ≤ s.frc)
    (hissue : s.crook.sb.lastIssue + 20000000 ≤ s.frc) :
    sbTokenTimeoutDo s = (((s.onSb fun b => { b with gen := b.gen + 1, lastIssue := s.frc }).inc
      F.cmdStatus_TOKENS_NEW 0).emit (.sbToken (s.crook.sb.gen + 1) false)) := by
  have hdue : max s.crook.sb.lastToken s.crook.sb.lastIssue + 20000000 ≤ s.frc := by omega
  simp only [sbTokenTimeoutDo, awake, on, monitor, hdue, Bool.not_false, Bool.and_self, decide_true, if_true]
  rfl

theorem sbClaimStartDo_due (state : sbState s = 1 ∨ sbMonitor s = true)
    (hdue : s.crook.sb.lastToken + 50000000 ≤ s.frc) :
    sbClaimStartDo s = ((setSbState 0 s).onSb fun b => { b with claimSince := s.frc, lastClaim := s.frc }).emit
      (.sbClaim s.sys.devid) := by
  have hnot : claiming s = false := by
    rcases state with h | h
    · simp [claiming, h]
    · simp [claiming, beq_iff_eq.1 (show (sbState s == 2) = true from h)]
  simp only [sbClaimStartDo, awake, on, hnot, hdue, Bool.not_false, Bool.and_self, decide_true, if_true]

theorem sbClaimSendDo_due (state : sbState s = 0) (hdue : s.crook.sb.lastClaim + 1000000 ≤ s.frc) :
    sbClaimSendDo s = (s.onSb fun b => { b with lastClaim := s.frc }).emit (.sbClaim s.sys.devid) := by
  have hclaims : claiming s = true := by simp [claiming, awake, on, state]
  simp only [sbClaimSendDo, hclaims, hdue, decide_true, Bool.and_self, if_true]

theorem sbRingFaultDo_due (state : sbState s = 0) (hdue : s.crook.sb.claimSince + 100000000 ≤ s.frc) :
    sbRingFaultDo s = raiseLevel 0x0E sbInst (some (0x31, 0, 0)) (setSbState 3 s) := by
  simp only [sbRingFaultDo, awake, on, state, hdue, Bool.not_false, Bool.and_self, beq_self_eq_true, decide_true, if_true]

end station

/-- Settles O25: each row of the station, whose result is its own meaning, by the branch that its state takes. -/
theorem sidebandStationWorks : Obligations.SidebandStationWorks := by
  intro s awake on
  refine ⟨fun gen mon member idle => ?token, fun d member hsrc hdst hcrc => ?data, fun d o hsrc hc hf => ?own,
    fun src hlow => ⟨_, congrArg _ (sbClaimDo_lower awake on hlow), rfl⟩,
    fun member => congrArg _ (sbClaimDo_own awake on member),
    fun monitor ht hi => congrArg _ (sbTokenTimeoutDo_monitor awake on monitor ht hi),
    fun state hdue => congrArg _ (sbClaimStartDo_due awake on state hdue),
    fun state hdue => congrArg _ (sbClaimSendDo_due awake on state hdue),
    fun state hdue => congrArg _ (sbRingFaultDo_due awake on state hdue)⟩
  case token =>
    refine congrArg Host.Outcome.next ((sbTokenDo_member awake on member idle gen mon).trans ?_)
    rw [useToken_eq, tokenSeen_gen]
    rfl
  case data =>
    refine congrArg Host.Outcome.next ((sbDataDo_takes awake on member hsrc hdst hcrc).trans ?_)
    simp only [sbTake, member, Bool.or_false]
  case own =>
    refine ⟨sbDataDo d s, rfl, ?_⟩
    rw [sbDataDo_own awake on hsrc hc hf]
    exact ⟨rfl, rfl, rfl, rfl⟩

section rom

variable {s t : State} {h : Held} {ctx w a : Nat} {x : MicroStep} {r : Request} {f : Fetch}

/-! ### The microsequencer (R309, R312) -/

theorem seqStep_call (hop : bits w 22 20 = 3) : seqStep h ctx x w s =
    if ((s.context ctx).uaddr == 0x1FFF || decide (8 ≤ (s.context ctx).stack.length)) = true then
      (.check (s.context ctx).uaddr none, s)
    else (.going, s.setContext ctx { s.context ctx with
      uaddr := w % 2 ^ 13, stack := ((s.context ctx).uaddr + 1) :: (s.context ctx).stack }) := by
  simp only [seqStep, hop]

theorem seqStep_return_none (hop : bits w 22 20 = 4) (hs : (s.context ctx).stack = []) :
    seqStep h ctx x w s = (.check (s.context ctx).uaddr none, s) := by
  simp only [seqStep, hop, hs]

theorem seqStep_return {rest : List Nat} (hop : bits w 22 20 = 4) (hs : (s.context ctx).stack = a :: rest)
    (hev : evalWords (instOf 0x12 ctx) [64 + rest.length] s = (t, false)) :
    seqStep h ctx x w s = (.going, t.setContext ctx { s.context ctx with uaddr := a, stack := rest }) := by
  simp only [seqStep, hop, hs, hev, Bool.false_eq_true, if_false]

/-- A command that starts follows its microsteps first. -/
theorem runRow_steps (st : Starts r h ctx s) (body : Body) (f : Fetch) :
    runRow true body r f s = runStarted body (h.inCtx ctx) ctx false f (startIn h.n ctx (fencePassed h s)) := by
  simp only [runRow, st.up, st.held, startHeld, st.room, st.order, st.admitted, st.unbroken, Bool.not_true,
    Bool.or_false, Bool.not_false, Bool.and_true, if_true, Bool.false_eq_true, if_false]
  rfl

/-- A machine check among the microsteps, no part made, records itself and ends the command. -/
theorem runStarted_check {body : Body} {nano : Option Nat} (hparts : f.parts = none)
    (hm : microRun h ctx f.steps s = (.check a nano, t)) (broken : Bool) :
    runStarted body h ctx broken f s = settleOwn h.n stMachineCheck [] (recordCheck h.req.pkt ctx a nano t) := by
  simp only [runStarted, hm, microStops, stopped, hparts, settle_some, trackLate_of_staged]

/-! ### The control store (R314) -/

theorem fldGet_lt (v : ObjVal) (f : Fld) : fldGet v f < 2 ^ f.width := (v.extractLsb' f.lo f.width).isLt

/-- The check has found the CRC that the store names. -/
def romFound (s : State) : State := s.puts 0 [(F.crookId_CALC_CRC, s.get F.crookId_ROM_CRC 0), (F.crookId_CHECK_STATE, 2)]

theorem romChecked_good (s : State) : romChecked (s.get F.crookId_ROM_CRC 0) s =
    { romFound s with sys := { s.sys with romDone := true, romOk := if !s.sys.romDone then true else s.sys.romOk } } := by
  simp only [romChecked, beq_self_eq_true, if_true]
  rfl

theorem romChecked_good_get (s : State) (f : Fld) :
    (romChecked (s.get F.crookId_ROM_CRC 0) s).get f 0 = (romFound s).get f 0 := by
  rw [romChecked_good]
  rfl

theorem romChecked_good_CHECK_STATE (s : State) :
    (romChecked (s.get F.crookId_ROM_CRC 0) s).get F.crookId_CHECK_STATE 0 = 2 :=
  (romChecked_good_get s _).trans (State.get_put _ _ _ _ (by decide) (by decide))

theorem romChecked_good_CALC_CRC (s : State) :
    (romChecked (s.get F.crookId_ROM_CRC 0) s).get F.crookId_CALC_CRC 0 = s.get F.crookId_ROM_CRC 0 := by
  have hlt : s.get F.crookId_ROM_CRC 0 < 2 ^ F.crookId_CALC_CRC.width := fldGet_lt ..
  rw [romChecked_good_get]
  exact (State.get_put_field _ F.crookId_CHECK_STATE F.crookId_CALC_CRC 0 2 rfl (by decide) (by decide)
    (by decide)).trans ((State.get_put s _ _ _ (by decide) (by decide)).trans (Nat.mod_eq_of_lt hlt))

end rom

/-- Settles O26: the sequencing operations, a machine check of a command that starts, and the check of the store. -/
theorem romChecksRun : Obligations.RomChecksRun := by
  refine ⟨fun h ctx w x s => ⟨fun hop hinc hroom => ?call, fun hop hfull => ?ninth,
    fun a rest t hop hs hev => seqStep_return hop hs hev, fun hop hs => seqStep_return_none hop hs⟩,
    fun r h ctx f s t a nano st ho hparts hm => ?check, fun s awake => ⟨fun idle => next_live awake ?start,
    fun runs => next_live awake ?running, fun runs => next_live awake (if_pos (beq_iff_eq.2 runs)),
    fun crc hcrc => ?done⟩⟩
  case call =>
    refine (seqStep_call hop).trans (if_neg ?_)
    simp [hinc, Nat.not_le.2 hroom]
  case ninth =>
    refine (seqStep_call hop).trans (if_pos ?_)
    simp [hfull]
  case check =>
    have hrow : isRow opNop r.pkt s = true :=
      isRow_of st ho (not_collect (by rw [ho]; decide)) (not_flockCommit (by rw [ho]; decide))
    refine next_live st.awake ?_
    rw [hrow, runRow_steps st, runStarted_check hparts hm, st.pkt, Held.inCtx_n]
  case start => exact if_neg (mt beq_iff_eq.1 idle)
  case running => exact if_pos (beq_iff_eq.2 runs)
  case done =>
    subst hcrc
    exact ⟨romChecked_good_CHECK_STATE s, romChecked_good_CALC_CRC s⟩

end Sys2Proof.Machine

/-! Reset, start-up, the pace loop and the junction sensor (R17, R18, R365 to R370, Table FA-4). -/

namespace Sys2Proof.Machine

open Sys2Proof

section startup

variable {s : State}

/-! ### The end of a reset (R365, R367, R376) -/

/-- The device as the deassertion of RESET_N leaves it, before a shepherd takes its role. -/
def freshDevice (role : Bool) (devid : Nat) (s : State) : State :=
  { State.reset with
    pending := s.pending, hostMem := s.hostMem, out := s.out, free := s.free
    sys := { sysReset with perst := s.sys.perst, role, devid, boots := s.sys.boots }
    crook := { crookStReset with secret := s.crook.secret, writesLeft := s.crook.writesLeft }
    flash := { s.flash with state := 0, prog := none, lastPatrol := none }
    log := resetLog s.log }

/-- The role and the state of its own device that a shepherd starts with. -/
def shepherdStarted (r : State) : State :=
  let r := (r.put F.roleCfg_ROLE 0 2).put F.identStatus_STATE 0 1
  r.setStagedObj .roleCfg 0 (r.obj .roleCfg 0)

theorem resetDeassertDo_eq (h : s.sys.inReset = true) (role : Bool) (devid : Nat) :
    resetDeassertDo role devid s =
      if role then shepherdStarted (freshDevice role devid s) else freshDevice role devid s := by
  simp only [resetDeassertDo, h, Bool.not_true, Bool.false_eq_true, if_false]
  rfl

theorem shepherdStarted_ROLE (r : State) : (shepherdStarted r).get F.roleCfg_ROLE 0 = 2 := by
  change ((r.put F.roleCfg_ROLE 0 2).put F.identStatus_STATE 0 1).get F.roleCfg_ROLE 0 = 2
  rw [State.get_put_object _ _ _ _ _ _ (by decide), State.get_put _ _ _ _ (by decide) (by decide)]
  rfl

theorem shepherdStarted_STATE (r : State) : (shepherdStarted r).get F.identStatus_STATE 0 = 1 := by
  change ((r.put F.roleCfg_ROLE 0 2).put F.identStatus_STATE 0 1).get F.identStatus_STATE 0 = 1
  rw [State.get_put _ _ _ _ (by decide) (by decide)]
  rfl

/-- What the end of a reset leaves of the state outside the objects. -/
structure Restarted (role : Bool) (devid : Nat) (s t : State) : Prop where
  sys : t.sys = { sysReset with perst := s.sys.perst, role, devid, boots := s.sys.boots }
  frames : t.frames = []
  crook : t.crook = { crookStReset with secret := s.crook.secret, writesLeft := s.crook.writesLeft }
  hostMem : t.hostMem = s.hostMem
  pending : t.pending = s.pending

theorem restarted_resetDeassert (h : s.sys.inReset = true) (role : Bool) (devid : Nat) :
    Restarted role devid s (resetDeassertDo role devid s) := by
  rw [resetDeassertDo_eq h]
  cases role with
  | false => exact ⟨rfl, rfl, rfl, rfl, rfl⟩
  | true => exact ⟨rfl, rfl, rfl, rfl, rfl⟩

theorem cutProgram_hostMem (s : State) : (cutProgram s).hostMem = s.hostMem := by
  unfold cutProgram
  split <;> rfl

theorem cutProgram_sys (s : State) : (cutProgram s).sys = s.sys := by
  unfold cutProgram
  split <;> rfl

theorem resetAssertDo_hostMem (awake : Awake s) : (resetAssertDo s).hostMem = s.hostMem := by
  simp [resetAssertDo, awake, cutProgram_hostMem, State.puts]

theorem resetAssertDo_secret (awake : Awake s) : (resetAssertDo s).crook.secret = s.crook.secret := by
  simp [resetAssertDo, awake, State.puts]

theorem resetAssertDo_sys (awake : Awake s) : (resetAssertDo s).sys =
    { s.sys with inReset := true, bellwether := false, faultN := false, resetDue := false } := by
  simp [resetAssertDo, awake, State.puts, cutProgram_sys]

theorem deviceResetDo_due (hd : s.sys.resetDue = true) :
    deviceResetDo s =
      (let t := resetDeassertDo s.sys.role s.sys.devid (resetAssertDo s)
       { t with sys := { t.sys with byCommand := true } }) := by
  simp [deviceResetDo, hd]

/-! ### The steps of start-up (Table SU-2) -/

theorem setPhase_of_sound (hf : s.flt.fatal = false) (n : Nat) :
    setPhase n s = { s with sys := { s.sys with phase := n } } := by simp [setPhase, hf]

/-- The state once the fuses are loaded, before the record store is checked. -/
def fusesOn (s : State) : State :=
  { s with sys := { s.sys with fuses := true, boots := s.sys.boots + 1, phase := 2 } }

theorem fusesLoadedDo_eq (awake : Awake s) (hf : s.flt.fatal = false) (hfu : s.sys.fuses = false) :
    fusesLoadedDo s =
      (let t := { fusesOn s with log := { s.log with kept := s.log.kept && storeGood (fusesOn s) } }
       if !(s.log.kept && storeGood (fusesOn s)) && s.on F.flashCfg_EN 0 then flashFound 2 t else t) := by
  have off : (s.sys.inReset || s.sys.fuses) = false := by simp [awake, hfu]
  unfold fusesLoadedDo
  rw [if_neg (Bool.eq_false_iff.1 off),
    setPhase_of_sound (s := { s with sys := { s.sys with fuses := true, boots := s.sys.boots + 1 } }) hf]
  rfl

theorem storeGood_fusesOn (s : State) : storeGood (fusesOn s) = storeGood s := rfl

theorem crookStartDo_eq (awake : Awake s) (hf : s.flt.fatal = false) (hfu : s.sys.fuses = true)
    (hc : s.sys.crookOn = false) :
    crookStartDo s =
      (let t := romCheckStartDo { s with sys := { s.sys with crookOn := true, phase := 3 } }
       if t.sys.perst then t else trainLink t) := by
  have off : (s.sys.inReset || !s.sys.fuses || s.sys.crookOn) = false := by simp [awake, hfu, hc]
  unfold crookStartDo
  rw [if_neg (Bool.eq_false_iff.1 off), setPhase_of_sound (s := { s with sys := { s.sys with crookOn := true } }) hf]

theorem romCheckStartDo_sys (s : State) : (romCheckStartDo s).sys = s.sys := by
  unfold romCheckStartDo
  split <;> rfl

theorem selfTestDoneDo_eq (hup : crookUp s = true) (ht : s.sys.testDone = false) (ws : List (Nat × Nat)) :
    selfTestDoneDo ws s =
      (let t := ws.foldl (fun s w => testWord w.1 w.2 s) s
       overrideEnd { t with sys := { t.sys with testDone := true } }) := by
  simp [selfTestDoneDo, hup, ht]

theorem laneCalibrationDo_eq (hup : crookUp s = true) (hc : s.sys.calDone = false) (ls os : List Nat) :
    laneCalibrationDo ls os s =
      (let t := ls.foldl (fun s l => raisePlain 0x0A (laneInst l) (s.put F.lanePower_CAL_FAIL l 1)) s
       let u := os.foldl (fun s o => raisePlain 0x0B (instOf 0x02 o) s) t
       { u with sys := { u.sys with calDone := true } }) := by
  simp [laneCalibrationDo, hup, hc]

theorem deviceReadyDo_eq (awake : Awake s) (hf : s.flt.fatal = false) (hp : s.sys.phase = 3)
    (hc : startComplete s = true) :
    deviceReadyDo s =
      (let u := recPlain 0x05 (elapsedNow s / 1000) 0 (flushHeld (writeReset s))
       { u with sys := { u.sys with phase := 4, elapsed := some (elapsedNow s), bellSince := u.frc } }) := by
  simp [deviceReadyDo, awake, hf, hp, hc]

theorem bellwetherDo_due (awake : Awake s) (hf : s.flt.fatal = false) (hp : s.sys.phase = 4)
    (hd : s.sys.bellSince + 500000 ≤ s.time.frc) :
    bellwetherDo s = { s with sys := { s.sys with bellwether := !s.sys.bellwether, bellSince := s.time.frc } } := by
  have due : (s.sys.phase == 4 && !s.flt.fatal && !s.sys.inReset && decide (s.sys.bellSince + 500000 ≤ s.frc)) = true := by
    simp [awake, hf, hp, show s.sys.bellSince + 500000 ≤ s.frc from hd]
  exact if_pos due

/-! ### The log and the PCIe link (R342, R366, R390) -/

theorem logRestoreDo_eq (hup : crookUp s = true) (hk : s.log.kept = false) (hr : s.sys.logReady = false)
    (hst : s.flash.state = 2) :
    logRestoreDo s = { restoreLog s with log := { (restoreLog s).log with kept := true } } := by
  have run : (!crookUp s || s.log.kept || s.sys.logReady || s.flash.state != 2) = false := by simp [hup, hk, hr, hst]
  exact if_neg (Bool.eq_false_iff.1 run)

theorem logAvailableDo_kept (hup : crookUp s = true) (hk : s.log.kept = true) (hr : s.sys.logReady = false)
    (quiet : ((logOpen s).flt.fatal && (logOpen s).log.holding) = false) :
    logAvailableDo s = logOpen s := by
  simp [logAvailableDo, hup, hk, hr, quiet]

theorem perstAssertDo_eq (awake : Awake s) (hp : s.sys.perst = false) :
    perstAssertDo s =
      (let d := ({ s with sys := { s.sys with perst := true } } : State).puts 0
         [(F.hostStatus_LINK_GEN, 0), (F.hostStatus_LINK_WIDTH, 0)]
       let u := queuesOff (ringsOff d)
       let queues := u.crook.queues.map fun e => (e.1, { e.2 with done := [] })
       { u with crook := { u.crook with queues }, host := { u.host with msix := [] } }) := by
  simp only [perstAssertDo, hp, awake, Bool.false_eq_true, if_false]
  rfl

theorem perstDeassertDo_up (awake : Awake s) (hp : s.sys.perst = true) (hc : s.sys.crookOn = true) :
    perstDeassertDo s = trainLink { s with sys := { s.sys with perst := false } } := by
  simp [perstDeassertDo, hp, crookUp, hc, awake]

theorem perstDeassertDo_down (hp : s.sys.perst = true) (hc : s.sys.crookOn = false) :
    perstDeassertDo s = { s with sys := { s.sys with perst := false } } := by
  simp [perstDeassertDo, hp, crookUp, hc]

/-! ### The pace loop (R17, R18) -/

theorem avsWrite_get (s : State) (f : Fld) (i : Nat) : (avsWrite s).get f i = s.get f i := rfl

theorem setRequest_VCORE_REQ {v : Nat} (hv : v < 2 ^ F.paceStatus_VCORE_REQ.width) :
    (setRequest v s).get F.paceStatus_VCORE_REQ 0 = v := by
  unfold setRequest
  split
  next same => exact (beq_iff_eq.1 same).symm
  next =>
    rw [avsWrite_get, State.get_put _ _ _ _ (by decide) (by decide)]
    exact Nat.mod_eq_of_lt hv

theorem showLimit_VCORE_REQ (s : State) :
    (showLimit s).get F.paceStatus_VCORE_REQ 0 = s.get F.paceStatus_VCORE_REQ 0 := by
  refine (State.get_put_field _ F.paceStatus_AT_LIMIT F.paceStatus_VCORE_REQ 0 _ rfl (by decide) (by decide)
    (by decide)).trans ?_
  split
  · exact State.get_put_object _ _ _ _ _ _ (by decide)
  · rfl

theorem showLimit_highCount (s : State) : (showLimit s).pace.highCount = s.pace.highCount := by
  unfold showLimit
  rw [State.put_pace]
  split <;> rfl

theorem showLimit_VCORE_MIN (s : State) :
    (showLimit s).get F.paceControl_VCORE_MIN 0 = s.get F.paceControl_VCORE_MIN 0 := by
  unfold showLimit
  refine (State.get_put_object _ F.paceStatus_AT_LIMIT F.paceControl_VCORE_MIN 0 0 _ (by decide)).trans ?_
  split
  · exact State.get_put_object _ _ _ _ _ _ (by decide)
  · rfl

theorem State.get_lt (s : State) (f : Fld) (i : Nat) : s.get f i < 2 ^ f.width := fldGet_lt _ _

theorem avsReadDo_due (hu : s.pace.unacked.isSome = true) (hd : s.pace.lastRead + 5000 ≤ s.frc) :
    avsReadDo s = { s.emit (.avs (avsRequest 1 0)) with pace := { s.pace with lastRead := s.frc } } := by
  simp [avsReadDo, hu, hd]

theorem avsTimeoutDo_due {t : Nat} (hu : s.pace.unacked = some t) (hd : t + 100000 ≤ s.frc)
    (hst : s.get F.paceStatus_STATE 0 ≠ 2) :
    avsTimeoutDo s =
      (let u := (s.put F.paceStatus_STATE 0 2).put F.paceEvents_AVS_FAIL_S 0 1
       raiseLevel 0x09 paceInst none { u with pace := { u.pace with lastResend := u.frc } }) := by
  have due : (decide (t + 100000 ≤ s.frc) && s.get F.paceStatus_STATE 0 != 2) = true := by simp [hd, hst]
  simp only [avsTimeoutDo, hu, due, if_true]

theorem avsResendDo_due (hst : s.get F.paceStatus_STATE 0 = 2) (hd : s.pace.lastResend + 1000000 ≤ s.frc) :
    avsResendDo s = { s.emit (.avs (avsRequest 0 (s.get F.paceStatus_VCORE_REQ 0))) with
      pace := { s.pace with lastResend := s.frc, lastRead := s.frc } } := by
  simp [avsResendDo, hst, hd]
  rfl

theorem avsResponseDo_tracking {w : BitVec 32} (hu : s.pace.unacked.isSome = true) (ha : avsAcks w s = true)
    (hst : s.get F.paceStatus_STATE 0 = 1) :
    avsResponseDo w s =
      (let u := s.put F.paceStatus_VCORE_ACK 0 (bits w.toNat 23 8)
       { u with pace := { u.pace with unacked := none } }) := by
  have still : (s.put F.paceStatus_VCORE_ACK 0 (bits w.toNat 23 8)).get F.paceStatus_STATE 0 = 1 :=
    (State.get_put_field _ F.paceStatus_VCORE_ACK F.paceStatus_STATE _ _ rfl (by decide) (by decide)
      (by decide)).trans hst
  have kept (p : PaceSt) : State.get { s.put F.paceStatus_VCORE_ACK 0 (bits w.toNat 23 8) with pace := p }
      F.paceStatus_STATE 0 = 1 :=
    (State.get_congr (s := s.put F.paceStatus_VCORE_ACK 0 (bits w.toNat 23 8)) rfl _ _).trans still
  simp only [avsResponseDo, hu, ha, Bool.and_self, if_true]
  exact if_neg fun hold => absurd ((kept _).symm.trans (beq_iff_eq.1 hold)) (by decide)

/-- What a sample that is due shows before the loop runs (R17, R20). -/
def paceShown (pen bank : Nat) (s : State) : State :=
  showPaceLow (decide (pen < 3200) || decide (bank < 1250))
    (({ s with pace := { s.pace with lastSample := some s.time.frc } } : State).puts 0
      [(F.paceStatus_PEN_PACE, min pen 65535), (F.paceStatus_BANK_PACE, min bank 65535)])

theorem paceSampleDo_due {pen bank : Nat} (hd : ∀ t, s.pace.lastSample = some t → t + 10000 ≤ s.time.frc)
    (hst : s.get F.paceStatus_STATE 0 ≠ 0) :
    paceSampleDo pen bank s =
      if (paceShown pen bank s).get F.paceStatus_STATE 0 = 1 then paceLoop pen bank (paceShown pen bank s)
      else paceShown pen bank s := by
  have due : (s.pace.lastSample.any fun t => decide (s.frc < t + 10000)) = false := by
    cases hl : s.pace.lastSample with
    | none => rfl
    | some t => exact decide_eq_false (Nat.not_lt.2 (hd t hl))
  have running : (({ s with pace := { s.pace with lastSample := some s.frc } } : State).puts 0
      [(F.paceStatus_PEN_PACE, min pen 65535), (F.paceStatus_BANK_PACE, min bank 65535)]).get
        F.paceStatus_STATE 0 ≠ 0 := by
    simp only [State.puts]
    rw [State.get_put_field _ F.paceStatus_BANK_PACE F.paceStatus_STATE _ _ rfl (by decide) (by decide) (by decide),
      State.get_put_field _ F.paceStatus_PEN_PACE F.paceStatus_STATE _ _ rfl (by decide) (by decide) (by decide)]
    exact hst
  unfold paceSampleDo
  rw [if_neg (Bool.eq_false_iff.1 due)]
  simp only [beq_iff_eq, running, if_false]
  rfl

theorem paceLoop_below {pen bank : Nat}
    (below : pen * 1000 < 3200 * (1000 + s.get F.paceControl_MARGIN 0) ∨
      bank * 1000 < 1250 * (1000 + s.get F.paceControl_MARGIN 0)) :
    (paceLoop pen bank s).get F.paceStatus_VCORE_REQ 0 =
      min (s.get F.paceStatus_VCORE_REQ 0 + 5) (s.get F.paceControl_VCORE_MAX 0) := by
  have fits : min (s.get F.paceStatus_VCORE_REQ 0 + 5) (s.get F.paceControl_VCORE_MAX 0) <
      2 ^ F.paceStatus_VCORE_REQ.width :=
    Nat.lt_of_le_of_lt (Nat.min_le_right _ _) (State.get_lt s F.paceControl_VCORE_MAX 0)
  have test : (decide (pen * 1000 < 3200 * (1000 + s.get F.paceControl_MARGIN 0)) ||
      decide (bank * 1000 < 1250 * (1000 + s.get F.paceControl_MARGIN 0))) = true := by simpa using below
  simp only [paceLoop, test, if_true]
  rw [showLimit_VCORE_REQ, setRequest_VCORE_REQ fits]

theorem paceLoop_above {pen bank : Nat} (hpen : 3200 * (1000 + 2 * s.get F.paceControl_MARGIN 0) ≤ pen * 1000)
    (hbank : 1250 * (1000 + 2 * s.get F.paceControl_MARGIN 0) ≤ bank * 1000) (hc : s.pace.highCount = 15) :
    (paceLoop pen bank s).get F.paceStatus_VCORE_REQ 0 =
      max (s.get F.paceStatus_VCORE_REQ 0 - 5) (s.get F.paceControl_VCORE_MIN 0) := by
  have fits : max (s.get F.paceStatus_VCORE_REQ 0 - 5) (s.get F.paceControl_VCORE_MIN 0) <
      2 ^ F.paceStatus_VCORE_REQ.width :=
    Nat.max_lt.2 ⟨Nat.lt_of_le_of_lt (Nat.sub_le _ _) (State.get_lt s F.paceStatus_VCORE_REQ 0),
      State.get_lt s F.paceControl_VCORE_MIN 0⟩
  have below : ¬ (decide (pen * 1000 < 3200 * (1000 + s.get F.paceControl_MARGIN 0)) ||
      decide (bank * 1000 < 1250 * (1000 + s.get F.paceControl_MARGIN 0))) = true := by
    rw [Bool.or_eq_true, decide_eq_true_iff, decide_eq_true_iff]
    omega
  have above : (decide (3200 * (1000 + 2 * s.get F.paceControl_MARGIN 0) ≤ pen * 1000) &&
      decide (1250 * (1000 + 2 * s.get F.paceControl_MARGIN 0) ≤ bank * 1000)) = true := by
    rw [decide_eq_true hpen, decide_eq_true hbank, Bool.and_self]
  have last : ((showLimit { s with pace := { s.pace with asks := false } }).pace.highCount + 1 == 16) = true :=
    beq_iff_eq.2 (congrArg (· + 1) ((showLimit_highCount _).trans hc))
  unfold paceLoop
  rw [if_neg below, if_pos above, if_pos last, showLimit_VCORE_MIN]
  exact setRequest_VCORE_REQ fits

end startup


/-- Settles O27: RESET_N deasserted makes a fresh device, and a DEVICE_RESET asserts RESET_N and deasserts it. -/
theorem resetEnds : Obligations.ResetEnds := by
  refine ⟨fun s role devid h => ⟨_, rfl, ?_⟩, fun s awake hd => ?_⟩
  · obtain ⟨hsys, hframes, hcrook, hmem, hpending⟩ := restarted_resetDeassert h role devid.toNat
    refine ⟨(congrArg SysSt.inReset hsys :), (congrArg SysSt.phase hsys :), (congrArg SysSt.devid hsys :), hframes,
      (congrArg CrookSt.held hcrook :), hmem, (congrArg CrookSt.secret hcrook :), hpending, fun hr c i => ?_, fun hr => ?_⟩
    · rw [resetDeassertDo_eq h, hr]
      exact ⟨rfl, rfl⟩
    · rw [resetDeassertDo_eq h, hr]
      exact ⟨shepherdStarted_ROLE _, shepherdStarted_STATE _⟩
  · have held : (resetAssertDo s).sys.inReset = true := congrArg SysSt.inReset (resetAssertDo_sys awake)
    obtain ⟨hsys, hframes, hcrook, hmem, -⟩ := restarted_resetDeassert held s.sys.role s.sys.devid
    refine ⟨_, next_live awake (deviceResetDo_due hd), (congrArg SysSt.inReset hsys :), (congrArg SysSt.phase hsys :), rfl,
      (congrArg SysSt.devid hsys :), (congrArg SysSt.role hsys :), hframes, (congrArg CrookSt.held hcrook :),
      hmem.trans (resetAssertDo_hostMem awake), ?_⟩
    exact (congrArg CrookSt.secret hcrook :).trans (resetAssertDo_secret awake)

/-- Settles O28: each step of start-up, where nothing before it has been done already. -/
theorem startUpProceeds : Obligations.StartUpProceeds := by
  intro s awake hf
  refine ⟨fun hfu => ⟨fun hk hg => ?_, fun lost => ?_⟩, fun hfu hc => ?_,
    fun hup ht ws => next_live awake (selfTestDoneDo_eq hup ht ws), fun hup hc ls os hls hos => ?_,
    fun hp hc => congrArg Host.Outcome.next (deviceReadyDo_eq awake hf hp hc),
    fun hp hd => congrArg Host.Outcome.next (bellwetherDo_due awake hf hp hd)⟩
  · have good : (s.log.kept && storeGood (fusesOn s)) = true := by simp [hk, storeGood_fusesOn, hg]
    refine congrArg Host.Outcome.next ((fusesLoadedDo_eq awake hf hfu).trans ?_)
    have same : { s.log with kept := true } = s.log := by rw [← hk]
    simp only [good, Bool.not_true, Bool.false_and, Bool.false_eq_true, if_false, same]
    rfl
  · have bad : (s.log.kept && storeGood (fusesOn s)) = false := by
      rw [storeGood_fusesOn, Bool.and_eq_false_iff]
      exact lost
    refine congrArg Host.Outcome.next ((fusesLoadedDo_eq awake hf hfu).trans ?_)
    simp only [bad, Bool.not_false, Bool.true_and]
    rfl
  · refine congrArg Host.Outcome.next ((crookStartDo_eq awake hf hfu hc).trans ?_)
    simp only [romCheckStartDo_sys]
  · have inRange {n : Nat} {l : List Nat} (hl : ∀ x ∈ l, x < n) : l.filter (· < n) = l :=
      List.filter_eq_self.2 fun x hx => decide_eq_true (hl x hx)
    refine next_live awake ?_
    rw [inRange hls, inRange hos]
    exact laneCalibrationDo_eq hup hc ls os

/-- Settles O29. -/
theorem logAndLinkComeUp : Obligations.LogAndLinkComeUp := by
  intro s awake
  refine ⟨fun hup hk hr hst => next_live awake (logRestoreDo_eq hup hk hr hst), fun hup hk hr quiet => ?_,
    fun hp => congrArg Host.Outcome.next (perstAssertDo_eq awake hp),
    fun hp hc => congrArg Host.Outcome.next (perstDeassertDo_up awake hp hc),
    fun hp hc => congrArg Host.Outcome.next (perstDeassertDo_down hp hc)⟩
  exact next_live awake (congrArg settleLog (logAvailableDo_kept hup hk hr quiet))

/-- Settles O30: the pace sample and its loop, then each timer and answer of the voltage interface. -/
theorem paceLoopWorks : Obligations.PaceLoopWorks := by
  intro s pen bank awake
  refine ⟨fun hd hst => ⟨paceShown pen bank s, next_live awake (paceSampleDo_due hd hst), rfl⟩, paceLoop_below,
    paceLoop_above, fun hu hd => next_live awake (avsReadDo_due hu hd),
    fun t hu hd hst => next_live awake (avsTimeoutDo_due hu hd hst),
    fun hst hd => next_live awake (avsResendDo_due hst hd),
    fun w hu ha hst => next_live awake (avsResponseDo_tracking hu ha hst)⟩

/-- Settles O31: the temperature rows only raise and clear their sources. -/
theorem temperatureRaises : Obligations.TemperatureRaises := fun _ awake =>
  ⟨next_live awake rfl, next_live awake rfl, next_live awake rfl⟩

end Sys2Proof.Machine

/-! The frame path: arrival, the tail, the pens, the race, selection and departure (R34, R53, R65, R112, R176,
R199, R237). -/

namespace Sys2Proof.Machine

open Sys2Proof

theorem next_path {s t : State} {f : State → State} (awake : PathAwake s) (hf : f s = t) :
    (.next (path f s) : StepResult) = .next t :=
  congrArg Host.Outcome.next ((path_of_awake awake).trans hf)

theorem onRange_path {s t : State} {f : State → State} {n i : Nat} (awake : PathAwake s) (hi : i < n) (hf : f s = t) :
    onRange n i s (path f) = .next t :=
  (onRange_next hi).trans (next_path awake hf)

section arrival

variable {s : State} {p : Nat} {w : WireFrame}

/-! ### The first bit of a frame (R237, R262) -/

/-- The frame that a MAC begins with the first bit that it takes. -/
def arrived (p : Nat) (w : WireFrame) (s : State) : Frame :=
  let f := { blankFrame s.nextFrame with
    bytes := w.bytes
    inPort := p
    port0 := p
    inFrc := s.frc
    stamp := stampAdd s.tod16 (toSigned 16 (s.get F.portTs_RX_ADJ p) * 1024)
    preempted := w.preemptable && preemptActive p s
    fragments := w.fragments
    assemblyErr := w.assemblyErr
    smdErr := w.smdErr
    blockErr := w.blockErr
    phy := w.phy
    maxFrame := s.get F.portCfg_MAX_FRAME p }
  match w.pipe with
  | none => f
  | some x => { f with
      stamp := (nearestSec x.inSec s * 10 ^ 9 + x.inNs) * 65536 + x.inFrac % 65536
      overFlock := true
      srcDevid := x.srcDevid
      srcPort := x.srcPort
      tc := x.tc % 8 }

theorem ingressTake_takes (ht : macTakes p w s = true) :
    ingressTake p w s = { s with nextFrame := s.nextFrame + 1, frames := s.frames ++ [arrived p w s] } := by
  simp only [ingressTake, ht, Bool.not_true, Bool.false_eq_true, if_false]
  rfl

/-- What R237 says of the frame that a MAC begins at a port. -/
structure BeginsAt (p : Nat) (v : WireFrame) (s : State) (f : Frame) : Prop where
  id : f.id = s.nextFrame
  bytes : f.bytes = v.bytes
  inPort : f.inPort = p
  port0 : f.port0 = p
  loc : f.loc = .mac
  inFrc : f.inFrc = s.frc
  ended : f.ended = false
  blockErr : f.blockErr = v.blockErr
  maxFrame : f.maxFrame = s.get F.portCfg_MAX_FRAME p
  preempted : f.preempted = (v.preemptable && preemptActive p s)
  ethernet : v.pipe = none →
    f.overFlock = false ∧ f.stamp = stampAdd s.tod16 (toSigned 16 (s.get F.portTs_RX_ADJ p) * 1024)
  dataPipe : ∀ x, v.pipe = some x →
    f.overFlock = true ∧ f.srcDevid = x.srcDevid ∧ f.srcPort = x.srcPort ∧ f.tc = x.tc % 8

theorem beginsAt_arrived (p : Nat) (v : WireFrame) (s : State) : BeginsAt p v s (arrived p v s) := by
  unfold arrived
  cases hv : v.pipe with
  | none => exact ⟨rfl, rfl, rfl, rfl, rfl, rfl, rfl, rfl, rfl, rfl, fun _ => ⟨rfl, rfl⟩,
      fun x hx => by simp [hv] at hx⟩
  | some y =>
    refine ⟨rfl, rfl, rfl, rfl, rfl, rfl, rfl, rfl, rfl, rfl, fun hx => by simp [hv] at hx, fun x hx => ?_⟩
    obtain rfl : y = x := Option.some.inj (hv.symm.trans hx)
    exact ⟨rfl, rfl, rfl, rfl⟩

theorem farBack_of_sends (p : Nat) (w : WireFrame) (s : State) :
    farBack p w s = if sendsFar (frontLanes p s) s then farBack p w s else s := by
  by_cases h : sendsFar (frontLanes p s) s = true
  · rw [if_pos h]
  · rw [if_neg h, farBack, if_neg h]

/-- A far-end loopback only adds to the outgoing trace. -/
theorem farBack_eq (p : Nat) (w : WireFrame) (s : State) : ∃ out, farBack p w s = { s with out } := by
  unfold farBack
  split
  · cases w.pipe with
    | none => exact ⟨_, rfl⟩
    | some x => exact ⟨_, rfl⟩
  · exact ⟨s.out, rfl⟩

theorem ingressTake_farBack (ht : macTakes p w s = true) :
    ingressTake p w (farBack p w s) =
      { farBack p w s with nextFrame := s.nextFrame + 1, frames := s.frames ++ [arrived p w s] } := by
  obtain ⟨out, h⟩ := farBack_eq p w s
  rw [h]
  exact ingressTake_takes (s := { s with out }) ht

theorem ingressTake_loop (v : WireFrame) (x : PortSt) (ht : macTakes p v s = true) :
    ingressTake p v (s.setPort p x) =
      { s.setPort p x with nextFrame := s.nextFrame + 1, frames := s.frames ++ [arrived p v s] } :=
  ingressTake_takes (s := s.setPort p x) ht

theorem ingressStartDo_deafPipe (hp : isPipe p s = true) (hc : channelHears (p / 8) 1 s = false) :
    ingressStartDo p w s = s := by simp [ingressStartDo, hp, hc]

theorem ingressStartDo_eq (hears : isPipe p s = false ∨ channelHears (p / 8) 1 s = true) :
    ingressStartDo p w s =
      if hearsLoop (frontLanes p s) s then
        match (s.port p).loop with
        | [] => s
        | y :: ys => ingressTake p y (s.setPort p { s.port p with loop := ys })
      else if hearsLine (frontLanes p s) s then ingressTake p w (farBack p w s)
      else s := by
  have open_ : (isPipe p s && !channelHears (p / 8) 1 s) = false := by
    rcases hears with h | h <;> simp [h]
  exact if_neg (Bool.eq_false_iff.1 open_)

end arrival

section tails

variable {s t u : State} {p : Nat} {f : Frame}

/-! ### The tail of a frame (R34, R64, R65, R72) -/

/-- The check of the words of a frame that ends, after the MAC's own counts. -/
def endEval (p : Nat) (f : Frame) (s : State) : State × Bool :=
  evalHop (instOf 0x01 (p / 8)) 0 f.bytes.length (seenEnd p f (macCheck f).1 (macCheck f).2 s)

/-- A frame ends with the reason that the MAC finds, or with DR_ECC where only its words are bad. -/
theorem ingressEndDo_of_reason {r : Nat} (ha : arriving p s = some f)
    (hr : (if (macCheck f).1 == 0 && (endEval p f s).2 then drEcc else (macCheck f).1) = r) :
    ingressEndDo p s = pump (frameOver p f r (endEval p f s).1) := by
  subst hr
  simp only [ingressEndDo, ha]
  rfl

theorem frameOver_control (hc : isControl f = true) :
    frameOver p f 0 s =
      finish { f with ended := true, len0 := f.bytes.length } tmConsumed 0 0 (takeControl p f.bytes s) := by
  simp [frameOver, hc]

theorem frameOver_good (hc : isControl f = false) :
    frameOver p f 0 s = tailAll f 0 (countGood p 0 f.bytes s) := by
  simp [frameOver, hc]

theorem frameOver_bad {r : Nat} (hr : r ≠ 0) : frameOver p f r s = tailAll f r s := by
  simp [frameOver, hr]

theorem oversizeCutDo_eq (ha : arriving p s = some f) :
    oversizeCutDo p s =
      if f.maxFrame < f.bytes.length then
        pump ((s.frames.filter fun g => g.wire == f.id).foldl (fun s g => cutOne g s) s)
      else s := by
  simp only [oversizeCutDo, ha]

/-! ### A further cell (R176) -/

theorem growing_iff : growing f = true ↔ f.ended = false ∧ f.sentLen = 0 ∧ f.loc ≠ .tail ∧ f.cells ≠ [] ∧
    chainNeed f (truncLen f f.bytes.length) ≠ 0 := by
  simp [growing, and_assoc]

theorem chainCellDo_still {id : Nat} (hf : s.frame id = some f) (hg : growing f = false) : chainCellDo id s = s := by
  simp [chainCellDo, hf, hg]

theorem chainCellDo_good {id : Nat} {c : Nat × Nat} (hf : s.frame id = some f) (hg : growing f = true)
    (hc : chainCell f s = some (c, t)) (hm : mapWords [c] t = (u, false)) : chainCellDo id s = u := by
  simp [chainCellDo, hf, hg, hc, hm]

theorem chainCellDo_bad {id : Nat} {c : Nat × Nat} (hf : s.frame id = some f) (hg : growing f = true)
    (hc : chainCell f s = some (c, t)) (hm : mapWords [c] t = (u, true)) :
    chainCellDo id s = match u.frame id, f.loc with
      | some g, .queue _ => pump (dropQueued g drEcc u)
      | some g, _ => u.setFrame { g with stomp := drEcc }
      | none, _ => u := by
  simp only [chainCellDo, hf, hg, Bool.not_true, Bool.false_eq_true, if_false, hc, hm]
  cases u.frame id with
  | none => rfl
  | some g => cases f.loc <;> rfl

theorem chainCellDo_refused {id : Nat} (hf : s.frame id = some f) (hg : growing f = true) (hc : chainCell f s = none) :
    chainCellDo id s =
      (let s := s.inc F.foldStatus_CHAIN_FAIL 0
       match f.loc with
       | .queue _ => pump (dropQueued f drQuota (quotaDropped f.req s))
       | _ => s.setFrame { f with stomp := drLenStomp, sentLen := cellRoom f.cells }) := by
  simp only [chainCellDo, hf, hg, Bool.not_true, Bool.false_eq_true, if_false, hc] <;> rfl

end tails

/-- Settles O32: each of the four paths that the first bit of a frame can take. -/
theorem framesArrive : Obligations.FramesArrive := by
  intro p w s awake hp
  refine ⟨fun hpipe hc => onRange_path awake hp (ingressStartDo_deafPipe hpipe hc),
    fun hears => ⟨fun hloop hline => ?_, fun hloop hline ht => ?_, fun hloop v vs hv ht => ?_⟩⟩
  · exact onRange_path awake hp (by simp [ingressStartDo_eq hears, hloop, hline])
  · have hdo : ingressStartDo p w s =
        { farBack p w s with nextFrame := s.nextFrame + 1, frames := s.frames ++ [arrived p w s] } := by
      rw [ingressStartDo_eq hears, hloop, hline, ← ingressTake_farBack ht]
      rfl
    obtain ⟨out, hout⟩ := farBack_eq p w s
    obtain ⟨h1, h2, h3, h4, h5, h6, h7, h8, h9, h10, h11, h12⟩ := beginsAt_arrived p w s
    refine ⟨arrived p w s, (onRange_path awake hp hdo).trans ?_, h1, h2, h3, h4, h5, h6, h7, h8, h9, h10, h11, h12⟩
    rw [← farBack_of_sends, hout]
  · have hdo : ingressStartDo p w s = { s.setPort p { s.port p with loop := vs } with
        nextFrame := s.nextFrame + 1, frames := s.frames ++ [arrived p v s] } := by
      rw [ingressStartDo_eq hears, if_pos hloop, hv]
      exact ingressTake_loop v _ ht
    obtain ⟨h1, h2, h3, h4, h5, h6, h7, h8, h9, h10, h11, h12⟩ := beginsAt_arrived p v s
    exact ⟨arrived p v s, onRange_path awake hp hdo, h1, h2, h3, h4, h5, h6, h7, h8, h9, h10, h11, h12⟩

/-- Settles O33: the tail of a frame by what the MAC and the buffer's check find, then the chain of its cells. -/
theorem framesEnd : Obligations.FramesEnd := by
  refine ⟨fun p f s awake hp ha => ?_, fun id f s awake hf => ?_⟩
  · refine ⟨fun hm he hc => ?_, fun hm he hc => ?_, fun hm he => ?_, fun hm => ?_, fun hlen => ?_, fun hlen => ?_⟩
    · have good : (if (macCheck f).1 == 0 && (endEval p f s).2 then drEcc else (macCheck f).1) = 0 := by
        rw [show (endEval p f s).2 = false from he, Bool.and_false, hm]
        rfl
      exact onRange_path awake hp ((ingressEndDo_of_reason ha good).trans (congrArg pump (frameOver_control hc)))
    · have good : (if (macCheck f).1 == 0 && (endEval p f s).2 then drEcc else (macCheck f).1) = 0 := by
        rw [show (endEval p f s).2 = false from he, Bool.and_false, hm]
        rfl
      exact onRange_path awake hp ((ingressEndDo_of_reason ha good).trans (congrArg pump (frameOver_good hc)))
    · have words : (if (macCheck f).1 == 0 && (endEval p f s).2 then drEcc else (macCheck f).1) = drEcc :=
        if_pos (by rw [show (endEval p f s).2 = true from he, hm]; rfl)
      exact onRange_path awake hp ((ingressEndDo_of_reason ha words).trans (congrArg pump (frameOver_bad (by decide))))
    · have found : (if (macCheck f).1 == 0 && (endEval p f s).2 then drEcc else (macCheck f).1) = (macCheck f).1 :=
        if_neg (by simp [hm])
      exact onRange_path awake hp ((ingressEndDo_of_reason ha found).trans (congrArg pump (frameOver_bad hm)))
    · exact onRange_path awake hp ((oversizeCutDo_eq ha).trans (if_pos hlen))
    · exact onRange_path awake hp ((oversizeCutDo_eq ha).trans (if_neg (Nat.not_lt.2 hlen)))
  · refine ⟨fun still => ?_, fun c t u grows hc hm => ?_, fun c t u grows hc hm => ?_,
      fun grows hc => ⟨fun q hq => ?_, fun hq => ?_⟩⟩
    · exact next_path awake (chainCellDo_still hf (Bool.eq_false_iff.2 fun hg => still (growing_iff.1 hg)))
    · exact next_path awake (chainCellDo_good hf (growing_iff.2 grows) hc hm)
    · exact next_path awake (chainCellDo_bad hf (growing_iff.2 grows) hc hm)
    · refine next_path awake ((chainCellDo_refused hf (growing_iff.2 grows) hc).trans ?_)
      rw [hq]
      rfl
    · refine next_path awake ((chainCellDo_refused hf (growing_iff.2 grows) hc).trans ?_)
      cases hl : f.loc with
      | queue q => exact absurd hl (hq q)
      | _ => rfl

end Sys2Proof.Machine

/-! The frame path: the pens, the race, selection and departure (R91, R112, R199, R223). -/

namespace Sys2Proof.Machine

open Sys2Proof

section pens

variable {s t u : State} {p seq : Nat} {f g : Frame} {v : Verdict}

theorem headerWindowDo_frame (hw : windowFrame p s = some f) :
    headerWindowDo p s = drove ((newId s).2.setFrame { f with win := .waits s.frc (newId s).1 false }) := by
  simp only [headerWindowDo, hw]
  rfl

theorem headerWindowDo_none (hw : windowFrame p s = none) : headerWindowDo p s = s := by
  simp only [headerWindowDo, hw]

theorem penCompleteDo_decides (hf : (s.frames.find? fun f => f.loc == .pen && f.inPort == p && f.seq == seq) = some f)
    (hi : s.isolated (instOf 0x04 (f.pen.getD 0)) = false) (hd : penDecide { f with kind := 0 } s = (v, t))
    (hg : decided f v (perfEvent 0x04 0x01 (f.pen.getD 0) 1 t) = (g, u)) :
    penCompleteDo p seq s = drove (atRace p seq v g u) := by
  simp only [penCompleteDo, hf, hi, hd, hg, Bool.false_eq_true, if_false]

theorem atRace_late (hl : serialLt seq (s.get F.racePort_HEAD_SEQ p) = true) :
    atRace p seq v g s = lateDiscard g s := if_pos hl

theorem atRace_dropped (hl : serialLt seq (s.get F.racePort_HEAD_SEQ p) = false) (hr : v.reason ≠ 0) :
    atRace p seq v g s = raceAll p (dropInPen g v.reason s) :=
  (if_neg (Bool.eq_false_iff.1 hl)).trans (if_pos (bne_iff_ne.2 hr))

theorem atRace_stands (hl : serialLt seq (s.get F.racePort_HEAD_SEQ p) = false) (hr : v.reason = 0) :
    atRace p seq v g s = raceAll p
      (let a := s.setFrame { g with loc := .race }
       { a with frames := a.frames ++ v.copies.map fun c => { c with doneFrc := a.frc } }) :=
  (if_neg (Bool.eq_false_iff.1 hl)).trans (if_neg fun h => bne_iff_ne.1 h hr)

theorem raceTimeoutDo_eq (hf : (s.frames.find? fun f => f.inPort == p && f.seq == s.get F.racePort_HEAD_SEQ p &&
      f.kind == 0 && (f.loc == .pen || f.loc == .lost)) = some f) :
    raceTimeoutDo p s =
      if s.frc < f.disp + f.raceTo then s
      else
        let t := (orphan f (raceRecord f false s)).inc F.racePort_TIMEOUTS p
        let u := t.put F.racePort_HEAD_SEQ p (s.get F.racePort_HEAD_SEQ p + 1)
        drove (raceAll p (raise 0x07 (instOf 0x04 (f.pen.getD 0)) none .plain
          (some (0x13, p * 2 ^ 16 + s.get F.racePort_HEAD_SEQ p, f.pen.getD 0)) u)) := by
  simp only [raceTimeoutDo, hf]

end pens

section departure

variable {s u : State} {p t : Nat} {x : Bool} {f : Frame}

/-- The state of a port's queues once the frames that never fit their window are dropped (R200). -/
def overrunsDropped (p : Nat) (x : Bool) (s : State) : State := dropOverruns (s.frames.length + 1) p x s

theorem schedSelectDo_eq (awake : PathAwake s) (hp : p ≠ 1026) :
    schedSelectDo p x s = match select p x (overrunsDropped p x s) with
      | none => pump (overrunsDropped p x s)
      | some (t, f) =>
        let w := takeWords p t f (overrunsDropped p x s)
        if w.2 then pump (dropQueued f drEcc w.1)
        else
          let r := takeSelected p t x f w.1
          if p < 1024 then pump (startFront p x r.1 r.2)
          else if p == 1024 then refreshActive 1024 (startHost r.1 r.2)
          else if p == 1025 then recirculate r.1 r.2
          else pump (exportEnd r.1 r.2) := by
  have runs : (p == 1026 || s.flt.fatal) = false := by simp [hp, awake.2]
  exact if_neg (Bool.eq_false_iff.1 runs)

theorem egressEndDo_eq (hf : (s.frames.find? fun f => f.loc == .tx p x) = some f) :
    egressEndDo p x s =
      if (!f.ended && f.stomp != drOversize) || f.fragFrc.isNone || !portDrives p s then s
      else
        let b := sentBody f
        let e := evalHop (instOf 0x01 (p / 8)) 0 (b.length + 4) s
        let stomp := if f.stomp == 0 && e.2 then drEcc else f.stomp
        pump (refreshActive p (settlePreempt p (portClose p
          (egressDone p f stomp (if stomp == 0 then withFcs b else withStomp b) e.1)))) := by
  simp only [egressEndDo, hf]

theorem sentBody_eq (f : Frame) : sentBody f =
    if f.sentLen = 0 then f.sendBody else f.sendBody.take (((f.sentLen : Int) + f.growth).toNat) := by
  by_cases h : f.sentLen = 0 <;> simp [sentBody, h]

theorem exportFlushDo_due (hne : s.telem.filling ≠ [])
    (hd : s.telem.fillSince + s.get F.telemCfg_EXP_FLUSH 0 * 1000 ≤ s.frc) :
    exportFlushDo s = pump (closeExport s) := by
  simp [exportFlushDo, hne, hd]

end departure

/-- Settles O34: the header window, the three ways of a completed pen, and the time-out of the head. -/
theorem pensAndRaceWork : Obligations.PensAndRaceWork := by
  intro p s f awake hp
  refine ⟨fun hw => onRange_path awake hp (headerWindowDo_frame hw),
    fun hw => onRange_path awake hp (headerWindowDo_none hw), fun seq v t g u _ hf hi hd hg => ?_, fun hf => ?_⟩
  · have decides := penCompleteDo_decides hf hi hd hg
    exact ⟨fun late => onRange_path awake hp (decides.trans (congrArg drove (atRace_late late))), fun intime =>
      ⟨fun hr => onRange_path awake hp (decides.trans (congrArg drove (atRace_dropped intime hr))),
        fun hr => onRange_path awake hp (decides.trans (congrArg drove (atRace_stands intime hr)))⟩⟩
  · exact ⟨fun early => onRange_path awake hp ((raceTimeoutDo_eq hf).trans (if_pos early)),
      fun due => onRange_path awake hp ((raceTimeoutDo_eq hf).trans (if_neg (Nat.not_lt.2 due)))⟩

/-- Settles O35: selection, the end of a frame on a lane, and the telemetry frame that is due. -/
theorem framesLeave : Obligations.FramesLeave := by
  refine ⟨fun p t x f s u awake hp hne => ⟨fun hs => ?_, fun hs hw => ?_, fun hs hw => ?_⟩,
    fun p x f s awake hp hf => ⟨fun stands => ?_, fun leaves => ?_⟩,
    fun s awake hne hd => next_path awake (exportFlushDo_due hne hd)⟩
  · refine onRange_path awake hp ((schedSelectDo_eq awake hne).trans ?_)
    rw [show select p x (overrunsDropped p x s) = none from hs]
    rfl
  · refine onRange_path awake hp ((schedSelectDo_eq awake hne).trans ?_)
    rw [show select p x (overrunsDropped p x s) = some (t, f) from hs]
    simp only [show takeWords p t f (overrunsDropped p x s) = (u, true) from hw, if_true]
  · refine onRange_path awake hp ((schedSelectDo_eq awake hne).trans ?_)
    rw [show select p x (overrunsDropped p x s) = some (t, f) from hs]
    simp only [show takeWords p t f (overrunsDropped p x s) = (u, false) from hw, Bool.false_eq_true, if_false, beq_iff_eq]
  · refine onRange_path awake hp ((egressEndDo_eq hf).trans (if_pos ?_))
    rcases stands with ⟨he, hst⟩ | hfrag | hdrive
    · simp [he, hst]
    · simp [hfrag]
    · simp [hdrive]
  · have goes : ((!f.ended && f.stomp != drOversize) || f.fragFrc.isNone || !portDrives p s) = false := by
      simpa [and_assoc, Option.isSome_iff_ne_none] using leaves
    refine onRange_path awake hp ((egressEndDo_eq hf).trans ((if_neg (Bool.eq_false_iff.1 goes)).trans ?_))
    simp only [sentBody_eq, beq_iff_eq, Bool.and_eq_true]

end Sys2Proof.Machine

/-! Port timers, quotas, policers, the carving, shapers and learning (R70 to R77, R127, R140, R141, R170, R196, R359). -/

namespace Sys2Proof.Machine

open Sys2Proof

section timers

variable {s : State} {p i : Nat}

/-! ### Flow control, preemption and gates (R70, R71, R74, R76, R77) -/

/-- A pause of a port is over: its time has come, and the event is of its priority or of the whole port. -/
def pauseOver (p i : Nat) (s : State) (e : Nat × Nat) : Bool :=
  e.2 ≤ s.frc && (s.get F.portFc_FC_MODE p == 1 || e.1 == i)

theorem pauseOver_iff (e : Nat × Nat) :
    pauseOver p i s e = true ↔ e.2 ≤ s.frc ∧ (s.get F.portFc_FC_MODE p = 1 ∨ e.1 = i) := by
  simp [pauseOver]

theorem pauseExpiryDo_due (hd : ∃ e ∈ (s.port p).pauses, pauseOver p i s e = true) :
    pauseExpiryDo p i s = showPaused p
      (s.setPort p { s.port p with pauses := (s.port p).pauses.filter fun e => !pauseOver p i s e }) :=
  if_pos (List.any_eq_true.2 hd)

theorem fcSendDo_changed (hne : fcWanted p s ≠ (s.port p).fcSent) (hs : fcSends p s = true)
    (hm : s.get F.portFc_FC_MODE p ≠ 0) :
    fcSendDo p s = fcSend p
      ((List.range 8).foldl (fun m i => setBit m i (bit (fcWanted p s) i || bit (s.port p).fcSent i)) 0) (fcWanted p s)
      (s.setPort p { s.port p with fcSent := fcWanted p s }) :=
  if_pos (by simp [hne, hs, hm])

theorem fcRefreshDo_due {t : Nat} (hd : (s.port p).fcDue = some t) (ht : t ≤ s.frc) (hw : fcWanted p s ≠ 0)
    (hs : fcSends p s = true) : fcRefreshDo p s = fcSend p (fcWanted p s) (fcWanted p s) s := by
  simp [fcRefreshDo, hd, ht, hw, hs]

theorem verifyTimerDo_due (hv : s.get F.portStatus_VERIFY p = 1) (hd : (s.port p).verDue ≤ s.frc)
    (hl : s.on F.portStatus_LINK p = true) :
    verifyTimerDo p s = if (s.port p).verTries < 3 then
      lineOut p (.verify p) (s.setPort p { s.port p with
        verTries := (s.port p).verTries + 1, verDue := s.frc + s.get F.portPreempt_VERIFY_TIME p * 10 ^ 6 })
      else showPreempt p (s.put F.portStatus_VERIFY p 3) :=
  if_neg (by simp [hv, hl, Nat.not_lt.2 hd])

theorem verifyResponseDo_expected (hv : s.get F.portStatus_VERIFY p = 1) (ht : 0 < (s.port p).verTries) :
    verifyResponseDo p s = showPreempt p (s.put F.portStatus_VERIFY p 2) :=
  if_pos (by simp [hv, ht])

theorem gateListChangeDo_due {t : Nat} {l : GateList} (hp : (s.port p).gatePend = some (t, l)) (ht : t ≤ s.todNs) :
    gateListChangeDo p s = applyPending p s := by
  simp [gateListChangeDo, hp, ht]

theorem gateFollow_enabled (he : (s.port p).gates.en = true) :
    gateFollow p s = enterEntry p (entryAt (s.port p).gates (cyclePos (s.port p).gates (s.port p).gateStart s.todNs)) s :=
  if_pos he

end timers

section tables

variable {s : State}

/-! ### The carving, shapers and learning (R127, R140, R141, R170, R196) -/

theorem carveJoinDo_unused {b : Nat} (ho : blockOpen b s = false) (hu : s.blockUsed b = []) :
    carveJoinDo b s = blockJoin b s := by
  simp [carveJoinDo, ho, hu]

theorem slotVisitDo_boundary (h : s.frc % 64 = 0) :
    slotVisitDo s = ((s.listed .shaper).filter fun x =>
        s.on F.shaper_EN x && s.on F.shaper_WAITING x && s.get F.shaper_SLOT x == s.frc / 64 % 4096).foldl
      (fun s x => if lookD 0 (refill x s).sched.credit x < 0 then enterSlot x (refill x s)
        else refreshActive (shaperPort x) ((refill x s).put F.shaper_WAITING x 0)) s :=
  if_neg (by simp [h])

theorem slotVisitDo_between (h : s.frc % 64 ≠ 0) : slotVisitDo s = s := if_pos (bne_iff_ne.2 h)

theorem mem_filterExpiryDo {addr fid : Nat} {e : FilterEntry} :
    e ∈ (filterExpiryDo addr fid s).tab.filter ↔
      e ∈ s.tab.filter ∧ ¬(e.addr = addr ∧ e.fid = fid ∧ e.since + 100000000 ≤ s.frc) := by
  simp only [filterExpiryDo, List.mem_filter, Bool.not_eq_true', ← Bool.not_eq_true, Bool.and_eq_true, beq_iff_eq,
    decide_eq_true_eq, and_assoc]

section notices

variable {n : Notice} {rest : List Notice}

theorem noticeDeliverDo_ring (hn : s.tab.notices = n :: rest) (hd : s.get F.learnCfg_DEST 0 = 0) :
    noticeDeliverDo s = noticeToRing n rest s := by
  simp only [noticeDeliverDo, hn, hd]

theorem noticeDeliverDo_noWorker (hn : s.tab.notices = n :: rest) (hd : s.get F.learnCfg_DEST 0 = 1)
    (hw : s.mgmt.notice = none) (hr : s.get F.roleCfg_ROLE 0 ≠ 1) :
    noticeDeliverDo s = noticeLost n { s with tab := { s.tab with notices := rest } } := by
  simp only [noticeDeliverDo, hn, hd, hw, Option.isSome_none, Bool.false_eq_true, if_false]
  exact if_pos (bne_iff_ne.2 hr)

theorem noticeDeliverDo_worker (hn : s.tab.notices = n :: rest) (hd : s.get F.learnCfg_DEST 0 = 1)
    (hw : s.mgmt.notice = none) (hr : s.get F.roleCfg_ROLE 0 = 1) :
    noticeDeliverDo s =
      (let t := { s with tab := { s.tab with notices := rest } }
       sendRoute (shepherdId t) (collectRequest tagNotice 0 (0 :: n.words) t)
         { t with mgmt := { t.mgmt with notice := some (n, t.frc + relayWait t) } }) := by
  simp only [noticeDeliverDo, hn, hd, hw, Option.isSome_none, Bool.false_eq_true, if_false]
  exact if_neg fun h => bne_iff_ne.1 h hr

theorem noticeDeliverDo_waits (hd : s.get F.learnCfg_DEST 0 = 2) : noticeDeliverDo s = s := by
  cases hn : s.tab.notices with
  | nil => simp only [noticeDeliverDo, hn]
  | cons n rest => simp only [noticeDeliverDo, hn, hd]

end notices

section promoter

variable {b o i : Nat} {os : List Nat} {e : EmEntry}

theorem promoteDo_none (ho : ovfOf b s = []) : promoteDo b s = s := by simp [promoteDo, ho, promoteAll]

theorem promoteDo_full (ho : ovfOf b s = o :: os) (he : ovfEntry o s = some e) (hf : freeSlot b e.wide s = none) :
    promoteDo b s = s := by
  simp [promoteDo, ho, promoteAll, he, hf]

theorem promoteDo_moves (ho : ovfOf b s = o :: os) (he : ovfEntry o s = some e) (hf : freeSlot b e.wide s = some i) :
    promoteDo b s = promoteAll b os (promoteTo i o e s) := by
  simp [promoteDo, ho, promoteAll, he, hf]

end promoter

end tables

/-- Settles O36: each timer and event of a port, where it is due. -/
theorem portTimersAct : Obligations.PortTimersAct := by
  intro p i s awake hp
  refine ⟨fun hd => ?_, fun hne hs hm => onRange_path awake hp (fcSendDo_changed hne hs hm),
    fun t hd ht hw hs => onRange_path awake hp (fcRefreshDo_due hd ht hw hs),
    fun hv hd hl => onRange_path awake hp (verifyTimerDo_due hv hd hl),
    fun hv ht => onRange_path awake hp (verifyResponseDo_expected hv ht), fun t l hg ht => ?_, fun he => ?_⟩
  · have due : ∃ e ∈ (s.port p).pauses, pauseOver p i s e = true :=
      hd.imp fun e he => ⟨he.1, (pauseOver_iff e).2 he.2⟩
    refine ⟨(s.port p).pauses.filter fun e => !pauseOver p i s e, fun e => ?_,
      onRange_live awake.1 hp (pauseExpiryDo_due due)⟩
    rw [List.mem_filter, Bool.not_eq_true', ← Bool.not_eq_true]
    exact and_congr_right fun _ => not_congr (pauseOver_iff e)
  · refine onRange_live awake.1 hp ((congrArg (gatesMoved p) (gateListChangeDo_due hg ht)).trans ?_)
    simp only [applyPending, hg]
  · exact onRange_live awake.1 hp (congrArg (gatesMoved p) (gateFollow_enabled he))

/-- Settles O38. -/
theorem foldAndShapersFollow : Obligations.FoldAndShapersFollow := fun _ awake =>
  ⟨fun _ _ hr => onRange_live awake hr rfl, fun _ _ _ hp => onRange_live awake hp rfl,
    fun _ hb ho hu => onRange_live awake hb (carveJoinDo_unused ho hu),
    fun h => next_live awake (slotVisitDo_boundary h), fun h => next_live awake (slotVisitDo_between h)⟩

/-- Settles O39: the pending filter, the notice by its destination, the promoter, and fold recovery. -/
theorem learningFollows : Obligations.LearningFollows := by
  intro s awake
  refine ⟨fun addr fid => ⟨filterExpiryDo addr.toNat fid s, next_live awake rfl, fun e => mem_filterExpiryDo,
    rfl, rfl, rfl, rfl⟩, fun n rest hn => ⟨fun hd => next_live awake (noticeDeliverDo_ring hn hd),
      fun hd hw hr => next_live awake (noticeDeliverDo_noWorker hn hd hw hr),
      fun hd hw hr => next_live awake (noticeDeliverDo_worker hn hd hw hr)⟩,
    fun hd => next_live awake (noticeDeliverDo_waits hd),
    fun b hb => ⟨fun ho => onRange_live awake hb (promoteDo_none ho), fun o os e ho he =>
      ⟨fun hf => onRange_live awake hb (promoteDo_full ho he hf),
        fun i hf => onRange_live awake hb (promoteDo_moves ho he hf)⟩⟩, next_live awake rfl⟩

end Sys2Proof.Machine

/-! The states of a port (R81 to R84, R262). -/

namespace Sys2Proof.Machine

open Sys2Proof

section portStates

variable {s t : State} {p i : Nat} {f g : Fld}

/-- A live field put leaves the objects of every other class. -/
theorem State.get_put_class (s : State) (f g : Fld) {i j : Nat} (x : Nat) (hc : f.cls ≠ g.cls) (hi : i < 2 ^ 32)
    (hj : j < 2 ^ 32) : (s.put f i x).get g j = s.get g j :=
  State.get_put_object s f g i j x fun h => hc (oid_eq hi hj h).1

theorem State.get_putFree (s : State) (f g : Fld) (i j : Nat) :
    (s.putFree f i).get g j = (s.put f i (Config.freeValue s.free)).get g j := rfl

theorem isPipe_put (hp : p < 1024) (x : Nat) : isPipe p (s.put F.portStatus_LINK p x) = isPipe p s := by
  have same : (s.put F.portStatus_LINK p x).get F.octetCfg_MODE (p / 8) = s.get F.octetCfg_MODE (p / 8) :=
    State.get_put_class s _ F.octetCfg_MODE x (by decide) (by omega) (by omega)
  simp only [isPipe, same]

theorem lt_of_mem_frontLanes (hp : p < 1024) {l : Nat} (hl : l ∈ frontLanes p s) : l < 2 ^ 32 := by
  have few : s.get F.portCfg_NLANES p < 2 ^ 2 := State.get_lt s F.portCfg_NLANES p
  have count : 2 ^ s.get F.portCfg_NLANES p ≤ 2 ^ 3 := Nat.pow_le_pow_right (by decide) (by omega)
  unfold frontLanes octetLanes at hl
  split at hl
  · obtain ⟨k, hk, rfl⟩ := List.mem_map.1 hl
    have := List.mem_range.1 hk
    omega
  · obtain ⟨k, hk, rfl⟩ := List.mem_map.1 hl
    have := List.mem_range.1 hk
    omega

/-- A state with a port's status, the frames and the ports' own state as they were. -/
structure SamePort (p : Nat) (s t : State) : Prop where
  status : ∀ f : Fld, f.cls = .portStatus → t.get f p = s.get f p
  frames : t.frames = s.frames
  ports : t.ports = s.ports

theorem SamePort.refl (p : Nat) (s : State) : SamePort p s s := ⟨fun _ _ => rfl, rfl, rfl⟩

theorem SamePort.put (h : SamePort p s t) (hp : p < 1024) (hc : f.cls ≠ .portStatus) (hi : i < 2 ^ 32) (x : Nat) :
    SamePort p s (t.put f i x) :=
  ⟨fun g hg => (State.get_put_class t f g x (fun e => hc (e.trans hg)) hi (by omega)).trans (h.status g hg),
    h.frames, h.ports⟩

theorem SamePort.putFree (h : SamePort p s t) (hp : p < 1024) (hc : f.cls ≠ .portStatus) (hi : i < 2 ^ 32) :
    SamePort p s (t.putFree f i) :=
  ⟨(h.put hp hc hi _).status, h.frames, h.ports⟩

/-- The lanes of a port whose link comes up. DEDUCED, log entry 24. -/
def lanesFound (ls : List Nat) (s : State) : State :=
  ls.foldl (fun s l => ((s.put F.pcsLane_AM_LOCK l 1).puts l [(F.laneStatus_SIG_DET, 1), (F.laneStatus_CDR_LOCK, 1)]).putFree
    F.pcsLane_SKEW l) s

/-- The lanes of a port whose link is lost. DEDUCED, log entry 23. -/
def lanesLost (ls : List Nat) (s : State) : State :=
  ls.foldl (fun s l =>
    let s := s.putFree F.pcsLane_AM_LOCK l
    if laneUp l s then (s.putFree F.laneStatus_SIG_DET l).putFree F.laneStatus_CDR_LOCK l else s) s

theorem samePort_lanesFound (hp : p < 1024) {ls : List Nat} (hls : ∀ l ∈ ls, l < 2 ^ 32) :
    SamePort p s (lanesFound ls s) :=
  List.foldlRecOn (motive := fun t : State => SamePort p s t) ls _ (SamePort.refl p s) fun _ h l hl =>
    (((h.put hp (by decide) (hls l hl) 1).put hp (by decide) (hls l hl) 1).put hp (by decide) (hls l hl) 1).putFree hp
      (by decide) (hls l hl)

theorem samePort_lanesLost (hp : p < 1024) {ls : List Nat} (hls : ∀ l ∈ ls, l < 2 ^ 32) :
    SamePort p s (lanesLost ls s) :=
  List.foldlRecOn (motive := fun t : State => SamePort p s t) ls _ (SamePort.refl p s) fun t h l hl => by
    have locked : SamePort p s (t.putFree F.pcsLane_AM_LOCK l) := h.putFree hp (by decide) (hls l hl)
    dsimp only
    split
    · exact (locked.putFree hp (by decide) (hls l hl)).putFree hp (by decide) (hls l hl)
    · exact locked

/-- What a link that comes up on an Ethernet port shows of it, before its lanes. DEDUCED, log entry 24. -/
def faultsGone (p : Nat) (s : State) : State :=
  (s.puts p [(F.portStatus_LOCAL_FAULT, 0), (F.portStatus_HI_BER, 0),
    (F.portStatus_FEC_LOCK, b2n (s.get F.portCfg_FEC p != 0))]).putFree F.portStatus_REMOTE_FAULT p

/-- What a link that is lost leaves open of an Ethernet port. DEDUCED, log entry 23. -/
def faultsOpen (p : Nat) (s : State) : State :=
  openBits p [F.portStatus_LOCAL_FAULT, F.portStatus_REMOTE_FAULT, F.portStatus_HI_BER, F.portStatus_FEC_LOCK] s

/-- A put of one status field of a port leaves another. -/
theorem get_put_status (s : State) (f g : Fld) (p x : Nat) (hc : g.cls = f.cls) (hf : f.hi < 512 ∧ f.lo ≤ f.hi)
    (hd : g.hi < f.lo ∨ f.hi < g.lo) : (s.put f p x).get g p = s.get g p :=
  State.get_put_field s f g p x hc hf.1 hf.2 hd

theorem faultsOpen_LINK (p : Nat) (s : State) : (faultsOpen p s).get F.portStatus_LINK p = s.get F.portStatus_LINK p := by
  simp only [faultsOpen, openBits, List.foldl, State.get_putFree]
  rw [get_put_status _ F.portStatus_FEC_LOCK F.portStatus_LINK _ _ rfl (by decide) (by decide), State.get_putFree,
    get_put_status _ F.portStatus_HI_BER F.portStatus_LINK _ _ rfl (by decide) (by decide), State.get_putFree,
    get_put_status _ F.portStatus_REMOTE_FAULT F.portStatus_LINK _ _ rfl (by decide) (by decide), State.get_putFree,
    get_put_status _ F.portStatus_LOCAL_FAULT F.portStatus_LINK _ _ rfl (by decide) (by decide)]

/-- What remains of a status field once the faults of a port are gone, where none of the three puts is of its bits. -/
theorem faultsGone_LINK (p : Nat) (s : State) : (faultsGone p s).get F.portStatus_LINK p = s.get F.portStatus_LINK p := by
  simp only [faultsGone, State.puts, State.get_putFree]
  rw [get_put_status _ F.portStatus_REMOTE_FAULT F.portStatus_LINK _ _ rfl (by decide) (by decide),
    get_put_status _ F.portStatus_FEC_LOCK F.portStatus_LINK _ _ rfl (by decide) (by decide),
    get_put_status _ F.portStatus_HI_BER F.portStatus_LINK _ _ rfl (by decide) (by decide),
    get_put_status _ F.portStatus_LOCAL_FAULT F.portStatus_LINK _ _ rfl (by decide) (by decide)]

theorem faultsGone_LOCAL_FAULT (p : Nat) (s : State) : (faultsGone p s).get F.portStatus_LOCAL_FAULT p = 0 := by
  simp only [faultsGone, State.puts, State.get_putFree]
  rw [get_put_status _ F.portStatus_REMOTE_FAULT F.portStatus_LOCAL_FAULT _ _ rfl (by decide) (by decide),
    get_put_status _ F.portStatus_FEC_LOCK F.portStatus_LOCAL_FAULT _ _ rfl (by decide) (by decide),
    get_put_status _ F.portStatus_HI_BER F.portStatus_LOCAL_FAULT _ _ rfl (by decide) (by decide),
    State.get_put _ _ _ _ (by decide) (by decide)]
  rfl

theorem faultsGone_HI_BER (p : Nat) (s : State) : (faultsGone p s).get F.portStatus_HI_BER p = 0 := by
  simp only [faultsGone, State.puts, State.get_putFree]
  rw [get_put_status _ F.portStatus_REMOTE_FAULT F.portStatus_HI_BER _ _ rfl (by decide) (by decide),
    get_put_status _ F.portStatus_FEC_LOCK F.portStatus_HI_BER _ _ rfl (by decide) (by decide),
    State.get_put _ _ _ _ (by decide) (by decide)]
  rfl

theorem faultsGone_FEC_LOCK (p : Nat) (s : State) :
    (faultsGone p s).get F.portStatus_FEC_LOCK p = if s.get F.portCfg_FEC p = 0 then 0 else 1 := by
  simp only [faultsGone, State.puts, State.get_putFree]
  rw [get_put_status _ F.portStatus_REMOTE_FAULT F.portStatus_FEC_LOCK _ _ rfl (by decide) (by decide),
    State.get_put _ _ _ _ (by decide) (by decide)]
  by_cases h : s.get F.portCfg_FEC p = 0
  · rw [if_pos h, h]
    rfl
  · rw [if_neg h, b2n, if_pos (bne_iff_ne.2 h)]
    rfl

/-! ### The events (Table EP-12) -/

theorem debounceEndDo_due (hst : s.get F.portStatus_STATE p = 3)
    (hd : (s.port p).since + s.get F.portCfg_DEBOUNCE p * 1000 ≤ s.frc) :
    debounceEndDo p s = enterFlush p (s.inc F.portStatus_LINK_DOWNS p) :=
  if_pos (by simp [hst, hd])

theorem flushCompleteDo_empty (hst : s.get F.portStatus_STATE p = 4) (hq : busyQueues p s = []) :
    flushCompleteDo p s =
      if portRuns p s = false then toState p 0 (s.put F.portStatus_LINK p 0)
      else if s.on F.portStatus_LINK p then toState p 5 s else toState p 1 s := by
  simp only [flushCompleteDo, hst, hq, List.isEmpty_nil, beq_self_eq_true, Bool.and_self, if_true, Bool.not_eq_true']

theorem holdEndDo_due (hst : s.get F.portStatus_STATE p = 5)
    (hd : (s.port p).since + s.get F.portCfg_HOLD p * 1000 ≤ s.frc) : holdEndDo p s = toState p 2 s :=
  if_pos (by simp [hst, hd])

/-- Nothing keeps the link of a port from coming up but, on a data pipe, the pipe itself. -/
def linkMayRise (p : Nat) (s : State) : Prop :=
  portRuns p s = true ∧ (s.port p).closing = false ∧ s.on F.portStatus_LINK p = false ∧
    ∀ l ∈ frontLanes p s, laneUp l s = true

theorem linkUpDo_eq (up : linkMayRise p s) (used : portUsed p s = true) (hpipe : (isPipe p s && !pipeUp p s) = false) :
    linkUpDo p s =
      (let s := s.put F.portStatus_LINK p 1
       stateFound p (startVerify p
         (if isPipe p s then s else lanesFound (frontLanes p (faultsGone p s)) (faultsGone p s)))) := by
  obtain ⟨hr, hc, hl, hlanes⟩ := up
  have rises : (!portRuns p s || !portUsed p s || (s.port p).closing || s.on F.portStatus_LINK p ||
      !((frontLanes p s).all fun l => laneUp l s) || (isPipe p s && !pipeUp p s)) = false := by
    simp [hr, used, hc, hl, hpipe, List.all_eq_true.2 hlanes]
  exact if_neg (Bool.eq_false_iff.1 rises)

/-- What every loss of a link does to the frames and the state of its port (R82). -/
def dataStops (p : Nat) (s : State) : State :=
  let u := showPaused p (s.setPort p { s.port p with pauses := [] })
  let v := (u.frames.filter fun f => f.loc == .tx p true || f.loc == .tx p false).foldl
    (fun s f => cutOff f drPortDown s) u
  pump (if (v.port p).closing then portClose p v else stateLost p v)

theorem linkLossDo_eq (runs : portRuns p s = true ∨ (s.port p).closing = true) (hl : s.on F.portStatus_LINK p = true)
    (hpipe : (isPipe p s && pipeUp p s) = false) (hloop : (!isPipe p s && hearsLoop (frontLanes p s) s) = false) :
    linkLossDo p s =
      (let s := s.put F.portStatus_LINK p 0
       dataStops p (if isPipe p s then s else lanesLost (frontLanes p (faultsOpen p s)) (faultsOpen p s))) := by
  have lost : (!(portRuns p s || (s.port p).closing) || !s.on F.portStatus_LINK p || (isPipe p s && pipeUp p s) ||
      (!isPipe p s && hearsLoop (frontLanes p s) s)) = false := by
    rw [hpipe, hloop, hl, show (portRuns p s || (s.port p).closing) = true by simpa using runs]
    rfl
  exact if_neg (Bool.eq_false_iff.1 lost)

theorem put_LINK (s : State) (p x : Nat) : (s.put F.portStatus_LINK p x).get F.portStatus_LINK p = x % 2 :=
  State.get_put _ _ _ _ (by decide) (by decide)

/-- The link of an Ethernet port once its lanes are found. -/
theorem ethernetUp (hp : p < 1024) (s : State) :
    let u := faultsGone p (s.put F.portStatus_LINK p 1)
    let t := lanesFound (frontLanes p u) u
    t.get F.portStatus_LINK p = 1 ∧ t.get F.portStatus_LOCAL_FAULT p = 0 ∧ t.get F.portStatus_HI_BER p = 0 ∧
      t.get F.portStatus_FEC_LOCK p = (if s.get F.portCfg_FEC p = 0 then 0 else 1) ∧ t.frames = s.frames ∧
      t.ports = s.ports := by
  intro u t
  have same : SamePort p u t := samePort_lanesFound hp fun l hl => lt_of_mem_frontLanes hp hl
  have fec : (s.put F.portStatus_LINK p 1).get F.portCfg_FEC p = s.get F.portCfg_FEC p :=
    State.get_put_class s _ F.portCfg_FEC 1 (by decide) (by omega) (by omega)
  refine ⟨(same.status _ rfl).trans ((faultsGone_LINK p _).trans (put_LINK s p 1)),
    (same.status _ rfl).trans (faultsGone_LOCAL_FAULT p _), (same.status _ rfl).trans (faultsGone_HI_BER p _), ?_,
    same.frames, same.ports⟩
  rw [same.status _ rfl, faultsGone_FEC_LOCK, fec]

/-- The link of an Ethernet port once its lanes are lost. -/
theorem ethernetDown (hp : p < 1024) (s : State) :
    let u := faultsOpen p (s.put F.portStatus_LINK p 0)
    let t := lanesLost (frontLanes p u) u
    t.get F.portStatus_LINK p = 0 ∧ t.frames = s.frames ∧ t.ports = s.ports := by
  intro u t
  have same : SamePort p u t := samePort_lanesLost hp fun l hl => lt_of_mem_frontLanes hp hl
  exact ⟨(same.status _ rfl).trans ((faultsOpen_LINK p _).trans (put_LINK s p 0)), same.frames, same.ports⟩

end portStates

/-- Settles O37: the timers of a port's states, then the link that comes up and the link that is lost. -/
theorem portStatesFollow : Obligations.PortStatesFollow := by
  intro p s awake hp
  refine ⟨fun hst hd => onRange_live awake hp (debounceEndDo_due hst hd),
    fun hst hq => onRange_live awake hp (flushCompleteDo_empty hst hq),
    fun hst hd => onRange_live awake hp (holdEndDo_due hst hd), ⟨fun up hpipe hup => ?_, fun up hpipe hspeed => ?_⟩,
    fun runs hl => ⟨fun hpipe hup => ?_, fun hpipe hloop => ?_⟩, fun h => if_pos (by simp [h]),
    fun h => by simp [stateLost, h], fun h => if_pos (by simp [h]), fun h => by simp [stateFound, h]⟩
  · refine onRange_live awake hp ((linkUpDo_eq up (by simp [portUsed, hpipe]) (by simp [hup])).trans ?_)
    simp only [isPipe_put hp, hpipe, if_true]
  · refine ⟨_, onRange_live awake hp ((linkUpDo_eq up (by simp [portUsed, hspeed]) (by simp [hpipe])).trans ?_),
      ethernetUp hp s⟩
    simp only [isPipe_put hp, hpipe, Bool.false_eq_true, if_false]
  · refine onRange_live awake hp ((linkLossDo_eq runs hl (by simp [hup]) (by simp [hpipe])).trans ?_)
    simp only [isPipe_put hp, hpipe, if_true]
    rfl
  · refine ⟨_, onRange_live awake hp ((linkLossDo_eq runs hl (by simp [hpipe]) (by simp [hloop])).trans ?_),
      ethernetDown hp s⟩
    simp only [isPipe_put hp, hpipe, Bool.false_eq_true, if_false]
    rfl

end Sys2Proof.Machine

/-! Lanes: power states, equalisation, the PRBS checker, and the groups and markers of a flock lane (R39 to R56). -/

namespace Sys2Proof.Machine

open Sys2Proof

section lanes

variable {s : State} {l : Nat}

/-! ### Power states (R54 to R56) -/

theorem powerReqDo_refused {req : Nat} (h : req = 3 ∨ (req ≠ 0 ∧ s.get F.laneCfg_LOOPBACK l ≠ 0)) :
    powerReqDo l req s = s :=
  if_pos (by simpa [powerReqBad] using h)

theorem powerReqDo_taken {req : Nat} (h3 : req ≠ 3) (h0 : req = 0 ∨ s.get F.laneCfg_LOOPBACK l = 0) :
    powerReqDo l req s = laneGo l (s.put F.lanePower_REQ l req) :=
  if_neg (by simpa [powerReqBad, h3, Decidable.or_iff_not_imp_left] using h0)

theorem laneGo_stays (h : (s.lane l).move.isSome = true ∨ laneTarget l s = s.get F.lanePower_STATE l) : laneGo l s = s :=
  if_pos (by simpa using h)

theorem laneGo_moves (hm : (s.lane l).move = none) (ht : laneTarget l s ≠ s.get F.lanePower_STATE l) :
    laneGo l s = laneMove l (laneTarget l s) (s.get F.lanePower_STATE l == 2) s :=
  if_neg (by simp [hm, ht])

theorem laneReachedDo_none (hm : (s.lane l).move = none) : laneReachedDo l s = s := by simp only [laneReachedDo, hm]

/-- The lane with its transition over. -/
def laneArrived (l dst : Nat) (s : State) : State :=
  (s.setLane l { s.lane l with move := none, prbsSince := s.frc }).puts l
    [(F.lanePower_STATE, dst), (F.lanePower_MOVING, 0)]

/-- What a lane does at the end of a transition, once an exit from L2 is settled: in L0 it has its signal, and it goes on to
the state it has to be in. -/
def laneStands (l dst : Nat) (s : State) : State :=
  laneGo l (if dst = 0 then
    trainTaps l (watchLanes (l / 8) (s.puts l [(F.laneStatus_SIG_DET, 1), (F.laneStatus_CDR_LOCK, 1)])) else s)

theorem laneReachedDo_some {dst t0 : Nat} {exit : Bool} (hm : (s.lane l).move = some (dst, t0, exit)) :
    laneReachedDo l s = laneStands l dst (if exit then
      let v := (laneArrived l dst s).put F.lanePower_CAL_FAIL l 0
      if v.get F.laneRxeq_ADAPT l == 2 then v else laneAdapt l v
      else laneArrived l dst s) := by
  simp only [laneReachedDo, hm, laneStands, beq_iff_eq (a := dst)]
  rfl

theorem laneCalTimeoutDo_noExit {dst t0 : Nat} (hm : (s.lane l).move = some (dst, t0, false)) (pll : Bool) :
    laneCalTimeoutDo l pll s = s := by simp only [laneCalTimeoutDo, hm]

section calibration

variable {dst t0 : Nat}

theorem laneCalTimeoutDo_early (hm : (s.lane l).move = some (dst, t0, true)) (early : s.frc < t0 + 60000) (pll : Bool) :
    laneCalTimeoutDo l pll s = s := by
  simp only [laneCalTimeoutDo, hm, Nat.not_le.2 early, if_false]

theorem laneCalTimeoutDo_lane (hm : (s.lane l).move = some (dst, t0, true)) (due : t0 + 60000 ≤ s.frc) :
    laneCalTimeoutDo l false s = raisePlain 0x0A (laneInst l) ((s.setLane l { s.lane l with move := none }).puts l
      [(F.lanePower_STATE, 2), (F.lanePower_MOVING, 0), (F.lanePower_CAL_FAIL, 1)]) := by
  simp only [laneCalTimeoutDo, hm, due, if_true, Bool.false_eq_true, if_false, laneFail]

theorem laneCalTimeoutDo_pll (hm : (s.lane l).move = some (dst, t0, true)) (due : t0 + 60000 ≤ s.frc) :
    laneCalTimeoutDo l true s = raisePlain 0x0B (instOf 0x02 (l / 8)) (((rangeFrom (l / 8 * 8) 8).filter fun k =>
      inExit k s && ratePam (s.get F.laneCfg_RATE k) == ratePam (s.get F.laneCfg_RATE l)).foldl
        (fun s k => laneFail k s) s) := by
  simp only [laneCalTimeoutDo, hm, due, if_true]

end calibration

/-! ### Equalisation and the PRBS checker (R39, R40, R51) -/

theorem tapsKept_iff {v : ObjVal} : tapsKept l v s = true ↔
    ∀ f ∈ [F.laneTxeq_PRE3, F.laneTxeq_PRE2, F.laneTxeq_PRE1, F.laneTxeq_MAIN, F.laneTxeq_POST1],
      fldGet v f = s.get f l := by
  simp only [tapsKept, tapFields, List.all_eq_true, beq_iff_eq]

theorem txeqDo_refused {v : ObjVal} (h : 63 < tapSum v ∨ (training l s = true ∧ tapsKept l v s = false)) :
    txeqDo l v s = s := by
  refine if_neg ?_
  rcases h with sum | ⟨ht, hk⟩
  · simp [txeqAnswer, sum]
  · simp only [txeqAnswer, ht, hk, Bool.not_false, Bool.and_self, if_true]
    split <;> decide

theorem txeqDo_taken {v : ObjVal} (hs : tapSum v ≤ 63) (hk : training l s = true → tapsKept l v s = true) :
    txeqDo l v s =
      (let t := s.setObj .laneTxeq l (mergeBits (s.obj .laneTxeq l) v (accMask .laneTxeq [.RW]))
       if training l s then t else trainTaps l t) := by
  refine if_pos ?_
  have allowed : (training l s && !tapsKept l v s) = false := by
    cases ht : training l s with
    | false => rfl
    | true => simp [hk ht]
  simp [txeqAnswer, Nat.not_lt.2 hs, allowed]

theorem prbsLockDo_stays (h : s.get F.prbsCtrl_RX_PATTERN l = 0 ∨ s.on F.prbsCount_LOCK l = true) : prbsLockDo l s = s :=
  if_neg (by rcases h with h | h <;> simp [h])

theorem prbsLockDo_locks (hp : s.get F.prbsCtrl_RX_PATTERN l ≠ 0) (hl : s.on F.prbsCount_LOCK l = false) :
    prbsLockDo l s = (s.put F.prbsCount_LOCK l 1).setLane l { s.lane l with prbsSince := s.frc } :=
  if_pos (by simp [hp, hl])

theorem prbsLossDo_stays {e : Nat} (h : s.on F.prbsCount_LOCK l = false ∨ e ≤ 512) : prbsLossDo l e s = s :=
  if_neg (by rcases h with h | h <;> simp [h])

theorem prbsLossDo_loses {e : Nat} (hl : s.on F.prbsCount_LOCK l = true) (he : 512 < e) :
    prbsLossDo l e s = (prbsAdd F.prbsCount_ERR_COUNT F.prbsCount_ERR_SAT l e
      (prbsBitsUp (s.get F.laneCfg_RATE l) l s)).put F.prbsCount_LOCK l 0 :=
  if_pos (by simp [hl, he])

/-! ### Groups and markers of a flock lane (R45 to R49) -/

theorem groupEndDo_off (off : laneMode l s ≠ 2 ∨ laneUp l s = false) (tx rx viol herr : Nat) (signal : Bool) :
    groupEndDo l tx rx viol herr signal s = s :=
  if_pos (by simpa using off)

theorem markerDo_off (off : laneMode l s ≠ 2 ∨ laneUp l s = false) (good : Bool) (q a : Nat) :
    markerDo l good q a s = s :=
  if_pos (by simpa using off)

section running

variable (hmode : laneMode l s = 2) (hup : laneUp l s = true)

include hmode hup

theorem groupEndDo_runs (tx rx viol herr : Nat) (signal : Bool) :
    groupEndDo l tx rx viol herr signal s =
      (let s := laneSignal l signal (if sendsLine [l] s then groupSent l tx s else s)
       if signal then groupReceived l rx viol herr s else s) :=
  if_neg (by simp [hmode, hup])

/-- The lane of a good marker. -/
def markedLane (l q a : Nat) (s : State) : LaneSt :=
  { s.lane l with good := (s.lane l).good + 1, bad := 0, mark := some (q % 65536, a) }

theorem markerDo_good (q a : Nat) :
    markerDo l true q a s =
      (let gets := !s.on F.laneStatus_AM_LOCK l && 1 ≤ (s.lane l).good
       let y := markedLane l q a s
       let y := if gets && !(s.lane l).amSeen then { y with lagTx := 0, lagRx := 0, ovr := false, amSeen := true } else y
       let s := s.setLane l y
       watchLanes (l / 8) (deskew (l / 8) (if gets then s.put F.laneStatus_AM_LOCK l 1 else s))) :=
  if_neg (by simp [hmode, hup])

theorem markerDo_bad (q a : Nat) :
    markerDo l false q a s =
      (let t := s.setLane l { s.lane l with good := 0, bad := (s.lane l).bad + 1 }
       if 4 ≤ (s.lane l).bad + 1 then watchLanes (l / 8) (t.put F.laneStatus_AM_LOCK l 0) else t) :=
  if_neg (by simp [hmode, hup])

end running

theorem groupSent_eq (tx : Nat) : groupSent l tx s =
    if (s.lane l).ovr = true then
      ((s.addSat F.laneStatus_STUFF_OVR l 1024).put F.laneStatus_STUFF_OVR_S l 1).setLane l
        { s.lane l with lagTx := (s.lane l).lagTx - 64, ovr := (s.lane l).lagTx - 64 != 0 }
    else s.setLane l { s.lane l with
      lagTx := (s.lane l).lagTx + tx - 64, ovr := decide (192 ≤ (s.lane l).lagTx + tx - 64) } := by
  cases h : (s.lane l).ovr with
  | false => simp only [groupSent, h, Bool.false_eq_true, if_false, lagAfter]
  | true => simp only [groupSent, h, if_true, lagAfter, Nat.add_zero]

end lanes

/-- Settles O41: a write of REQ, the end of a transition, and an L2 exit that is late. -/
theorem lanePowerMoves : Obligations.LanePowerMoves := by
  intro l s awake hl
  refine ⟨fun q => ⟨fun bad => ?_, fun h3 h0 => ⟨fun stays => ?_, fun hm ht => ?_⟩⟩,
    fun hm => onRange_live awake hl (congrArg settleResets (laneReachedDo_none hm)),
    fun dst t0 exit hm => ⟨fun he => ?_, fun he ha => ?_, fun he ha => ?_⟩,
    fun dst t0 exit hm he pll => ?_, fun dst t0 hm => ⟨fun early pll => ?_, fun due => ⟨?_, ?_⟩⟩⟩
  all_goals refine onRange_live awake hl (congrArg settleResets ?_)
  · exact powerReqDo_refused (by simpa [← BitVec.toNat_inj] using bad)
  · exact (powerReqDo_taken (by simpa [← BitVec.toNat_inj] using h3)
      (by simpa [← BitVec.toNat_inj] using h0)).trans (laneGo_stays stays)
  · exact (powerReqDo_taken (by simpa [← BitVec.toNat_inj] using h3)
      (by simpa [← BitVec.toNat_inj] using h0)).trans (laneGo_moves hm ht)
  · rw [laneReachedDo_some hm, he]
    rfl
  · rw [laneReachedDo_some hm, he]
    exact congrArg (laneStands l dst) (if_pos (beq_iff_eq.2 ha))
  · rw [laneReachedDo_some hm, he]
    exact congrArg (laneStands l dst) (if_neg fun h => ha (beq_iff_eq.1 h))
  · exact laneCalTimeoutDo_noExit (he ▸ hm) pll
  · exact laneCalTimeoutDo_early hm early pll
  · exact laneCalTimeoutDo_lane hm due
  · exact laneCalTimeoutDo_pll hm due

/-- Settles O42. -/
theorem lanesAdaptAndCheck : Obligations.LanesAdaptAndCheck := by
  intro l s awake hl
  refine ⟨fun v => ⟨fun bad => ?_, fun hs ht hk => ?_, fun hs ht => ?_⟩, onRange_live awake hl rfl, fun a ha => ?_,
    onRange_live awake hl rfl, fun h => onRange_live awake hl (prbsLockDo_stays h),
    fun hp hk => onRange_live awake hl (prbsLockDo_locks hp hk),
    fun e => ⟨fun h => onRange_live awake hl (prbsLossDo_stays h),
      fun hk he => onRange_live awake hl (prbsLossDo_loses hk he)⟩⟩
  · refine onRange_live awake hl (txeqDo_refused (bad.imp_right fun ⟨ht, changed⟩ => ⟨ht, ?_⟩))
    exact Bool.eq_false_iff.2 fun kept => changed (tapsKept_iff.1 kept)
  · refine onRange_live awake hl ((txeqDo_taken hs fun _ => tapsKept_iff.2 hk).trans ?_)
    exact if_pos ht
  · refine onRange_live awake hl ((txeqDo_taken hs fun h => absurd (ht.symm.trans h) (by decide)).trans ?_)
    exact if_neg (Bool.eq_false_iff.1 ht)
  · exact onRange_live awake hl (if_neg (by simpa [← BitVec.toNat_inj] using ha))

/-- Settles O43: the group of a running lane, and the marker by what it makes of the lock. -/
theorem flockLanesRun : Obligations.FlockLanesRun := by
  intro l s awake hl
  refine ⟨fun off => ⟨fun a b c d => onRange_live awake hl (groupEndDo_off off ..),
    fun g q a => onRange_live awake hl (markerDo_off off ..)⟩,
    fun hmode hup => ⟨fun tx rx viol herr => ?_, fun q a => ?_⟩⟩
  · have sent : (if sendsLine [l] s then groupSent l tx s else s) = if sendsLine [l] s = false then s
        else if (s.lane l).ovr = true then
          ((s.addSat F.laneStatus_STUFF_OVR l 1024).put F.laneStatus_STUFF_OVR_S l 1).setLane l
            { s.lane l with lagTx := (s.lane l).lagTx - 64, ovr := (s.lane l).lagTx - 64 != 0 }
        else s.setLane l { s.lane l with
          lagTx := (s.lane l).lagTx + tx - 64, ovr := decide (192 ≤ (s.lane l).lagTx + tx - 64) } := by
      cases h : sendsLine [l] s with
      | false => rfl
      | true => exact groupSent_eq tx
    refine ⟨onRange_live awake hl ((groupEndDo_runs hmode hup ..).trans ?_),
      onRange_live awake hl ((groupEndDo_runs hmode hup ..).trans ?_)⟩
    · rw [sent]
      rfl
    · rw [sent]
      simp only [Option.isSome_some, if_true, groupReceived, lagAfter, Option.getD_some, ne_eq, ite_not]
      rfl
  · refine ⟨fun h => ?_, fun hk hg hs => ?_, fun hk hg hs => ?_, fun few => ?_, fun four => ?_⟩
    · have gets : (!s.on F.laneStatus_AM_LOCK l && decide (1 ≤ (s.lane l).good)) = false := by
        rcases h with h | h <;> simp [h]
      refine onRange_live awake hl ((markerDo_good hmode hup q a).trans ?_)
      simp only [gets, Bool.false_and, Bool.false_eq_true, if_false]
      rfl
    · have gets : (!s.on F.laneStatus_AM_LOCK l && decide (1 ≤ (s.lane l).good)) = true := by
        simp [hk, Nat.one_le_iff_ne_zero, hg]
      refine onRange_live awake hl ((markerDo_good hmode hup q a).trans ?_)
      have again : (true && !(s.lane l).amSeen) = false := by rw [hs]; rfl
      simp only [gets, again, Bool.false_eq_true, if_false, if_true]
      rfl
    · have gets : (!s.on F.laneStatus_AM_LOCK l && decide (1 ≤ (s.lane l).good)) = true := by
        simp [hk, Nat.one_le_iff_ne_zero, hg]
      refine onRange_live awake hl ((markerDo_good hmode hup q a).trans ?_)
      have first : (true && !(s.lane l).amSeen) = true := by rw [hs]; rfl
      simp only [gets, first, if_true]
      rfl
    · exact onRange_live awake hl ((markerDo_bad hmode hup q a).trans (if_neg (by omega)))
    · exact onRange_live awake hl ((markerDo_bad hmode hup q a).trans (if_pos (by omega)))

end Sys2Proof.Machine

/-! Flock links: superframes, overhead blocks, defects and pages (R252 to R260, R264, R265). -/

namespace Sys2Proof.Machine

open Sys2Proof

section links

variable {s : State} {o : Nat}

/-! ### The superframe that is sent (R252, R253, R264) -/

/-- The octet announces a page switch from the first superframe of a multiframe on. -/
def announced (o : Nat) (a : State) : State :=
  if (a.link o).txMfc = 0 ∧ a.on F.linkStatus_SWITCH_PENDING o = true then
    a.setLink o { a.link o with announce := true } else a

/-- The superframe with a JC code and a gap leaves an octet whose multiframe count stood in a. -/
def superframeSent (o : Nat) (a : State) (jc gap : Nat) (u : State) : State :=
  let r := slotsSent o (busyTxSlots o u) u
  let f : Superframe := ⟨r.1, List.replicate gap fillerPayload⟩
  let v := superframeOut o (overheadBlock o jc u) f r.2
  v.setLink o { v.link o with
    txMfc := ((a.link o).txMfc + 1) % 256, txLast := f, txBip := bip8 (overheadBlock o jc u) f }

theorem superframeDo_off (h : framerRuns o s = false) (e : Int) : superframeDo o e s = s := if_pos (by simp [h])

theorem superframeDo_runs (h : framerRuns o s = true) (e : Int) :
    superframeDo o e s = superframeSent o (txPageDo o s) (justify e).2 (justify e).1
      (if (justify e).2 == 1 then (announced o (txPageDo o s)).inc F.linkCount_JUST_POS o
       else if (justify e).2 == 2 then (announced o (txPageDo o s)).inc F.linkCount_JUST_NEG o
       else announced o (txPageDo o s)) := by
  have announces : announced o (txPageDo o s) =
      if ((txPageDo o s).link o).txMfc == 0 && (txPageDo o s).on F.linkStatus_SWITCH_PENDING o then
        (txPageDo o s).setLink o { (txPageDo o s).link o with announce := true } else txPageDo o s := by
    simp only [announced, Bool.and_eq_true, beq_iff_eq]
  rw [announces]
  exact if_neg (by simp [h])

/-! ### The overhead block that is received (R256, R257) -/

section received

variable {c : Bool} {b : BitVec 128} {x : Nat} {f : Superframe}

theorem overheadDo_deaf (h : framerRuns o s = false ∨ octetDelivers o s = false ∨
      (hearsLoop (octetLanes o) s = false ∧ hearsLine (octetLanes o) s = false)) :
    overheadDo o c b x f s = s := by
  rcases h with h | h | ⟨hloop, hline⟩
  · exact if_pos (by simp [h])
  · exact if_pos (by simp [h])
  · simp [overheadDo, hloop, hline]

section hearing

variable (runs : framerRuns o s = true) (delivers : octetDelivers o s = true)

include runs delivers

theorem overheadDo_loop (hloop : hearsLoop (octetLanes o) s = true) {y : LoopFrame} {ys : List LoopFrame}
    (hl : (s.link o).loop = y :: ys) :
    overheadDo o c b x f s = overheadAt o true y.overhead x y.before (s.setLink o { s.link o with loop := ys }) := by
  simp only [overheadDo, runs, delivers, hloop, hl, Bool.not_true, Bool.or_self, Bool.false_eq_true, if_false, if_true]

theorem overheadDo_line (hloop : hearsLoop (octetLanes o) s = false) (hline : hearsLine (octetLanes o) s = true) :
    overheadDo o c b x f s = overheadAt o c b x f s := by
  simp only [overheadDo, runs, delivers, hloop, hline, Bool.not_true, Bool.or_self, Bool.false_eq_true, if_false, if_true]

end hearing

theorem overheadAt_hunts (h : s.on F.linkStatus_IN_FRAME o = false) : overheadAt o c b x f s = huntDo o c b x s :=
  if_pos (by simp [h])

theorem overheadAt_nominal (h : s.on F.linkStatus_IN_FRAME o = true) (hx : x = (s.link o).next) :
    overheadAt o c b x f s = if isFaw c b then goodOverhead o b x f (superframeTaken o f s)
      else badOverhead o b x (superframeTaken o f s) := by
  have late : (x + 2049 == (s.link o).next) = false := beq_eq_false_iff_ne.2 (by omega)
  have nominal : (x == (s.link o).next) = true := beq_iff_eq.2 hx
  simp only [overheadAt, h, late, nominal, Bool.not_true, Bool.false_eq_true, Bool.and_false, Bool.true_or, if_false,
    if_true]

theorem huntDo_ends (faw : isFaw c b = true)
    (third : ∃ k ∈ (s.link o).cands, k.1 = x ∧ mfcOf b = (k.2.1 + 1) % 256 ∧ 2 ≤ k.2.2) :
    huntDo o c b x s = takePeer o b (acceptMfc o (mfcOf b) ((s.put F.linkStatus_IN_FRAME o 1).setLink o { s.link o with
      cands := [], base := mfcOf b, next := x + 2049 + gapOf b, lastOh := b, frameSince := s.frc })) := by
  obtain ⟨k, hk, hx, hm, hn⟩ := third
  refine if_pos (List.any_eq_true.2 ⟨k, hk, ?_⟩)
  simp [faw, hx, hm, hn]

theorem huntDo_first (faw : isFaw c b = true) (none : (s.link o).cands = []) :
    huntDo o c b x s = s.setLink o { s.link o with cands := [(x + 2049 + gapOf b, mfcOf b, 1)] } := by
  simp [huntDo, faw, none]

end received

/-! ### Defects and pages (R258, R264, R265) -/

theorem defectDo_declares {d : Nat} (hd : d < 5) (runs : framerRuns o s = true) (hp : present o d s = false)
    (hc : criterion o d true s = true) :
    defectDo o d true s =
      declareDefect o d (s.setLink o { s.link o with due := (s.link o).due.filter (· != (d, true)) }) := by
  simp [defectDo, hd, runs, hp, hc]

theorem defectDo_clears {d : Nat} (hd : d < 5) (runs : framerRuns o s = true) (hp : present o d s = true)
    (hc : criterion o d false s = true) :
    defectDo o d false s =
      clearDefect o d (s.setLink o { s.link o with due := (s.link o).due.filter (· != (d, false)) }) := by
  simp [defectDo, hd, runs, hp, hc]

theorem switchStatus_ok_iff :
    switchStatus o s = stOk ↔ s.on F.linkStatus_SWITCH_PENDING o = false ∧ standbyBad o s = false := by
  unfold switchStatus
  split
  next hp => simp [hp, stBusy, stOk]
  next hp =>
    split
    next hb => simp [hb, stBadParam, stOk]
    next hb => simp [hp, hb]

theorem txPageDo_due (hp : s.on F.linkStatus_SWITCH_PENDING o = true) (ha : (s.link o).announce = true)
    (hm : (s.link o).txMfc = 0) :
    txPageDo o s =
      (let page := 1 - s.get F.linkStatus_TX_PAGE o
       let t := (s.puts o [(F.linkStatus_TX_PAGE, page), (F.linkStatus_SWITCH_PENDING, 0)]).setLink o
         { s.link o with announce := false }
       pageRecord o 0 page
         { t with flock := { t.flock with stores := t.flock.stores.filter fun e => e.1 / 128 != o } }) :=
  if_pos (by simp [txSwitchDue, hp, ha, hm])

/-- An elastic store without an entry holds two empty superframes. -/
theorem storeOf_gone {t : State} {stores : List (Nat × Elastic)} {k : Nat}
    (h : t.flock.stores = stores.filter fun e => e.1 / 128 != o) (hk : k < 128) :
    (storeOf (o * 128 + k) t).held = [none, none] := by
  have place : (o * 128 + k) / 128 = o := by omega
  have gone : storeOf (o * 128 + k) t = storeDefault := by
    refine lookD_of_no_key _ fun v hv => ?_
    rw [h, List.mem_filter] at hv
    simp [place] at hv
  rw [gone]
  rfl

theorem votes_ne_nil {votes : List Bool} {page : Nat} (h : votedPage votes = some page) : votes ≠ [] := by
  rintro rfl
  exact absurd h (by simp [votedPage])

theorem rxPageDo_voted {page : Nat} (hb : (s.link o).base = 255) (hv : votedPage (s.link o).votes = some page)
    (hne : page ≠ s.get F.linkStatus_RX_PAGE o) :
    rxPageDo o s =
      pageRecord o 1 page ((s.setLink o { s.link o with votes := [] }).put F.linkStatus_RX_PAGE o page) := by
  have votes : (s.link o).votes.isEmpty = false := by simp [votes_ne_nil hv]
  simp only [rxPageDo, hb, hv, votes, bne_self_eq_false, Bool.or_self, Bool.false_eq_true, if_false, Option.getD_some,
    beq_iff_eq, hne]

end links

/-- Settles O44: the superframe by its justification, then the overhead block by what the framer hears and knows. -/
theorem flockLinksRun : Obligations.FlockLinksRun := by
  intro o s awake ho
  refine ⟨fun off start tick => onRange_live awake ho (superframeDo_off off _),
    fun runs start tick => ⟨fun he => ?negative, fun he => ?positive, fun hlo hhi => ?none⟩,
    fun c faw rest x f => ⟨fun deaf => onRange_live awake ho (overheadDo_deaf deaf),
      fun runs del hloop y ys hl => onRange_live awake ho (overheadDo_loop runs del hloop hl),
      fun runs del hloop hline => ?line⟩⟩
  case negative =>
    have hj : justify ((start : Int) - tick) = (0, 2) := if_pos he
    refine onRange_live awake ho ((superframeDo_runs runs _).trans ?_)
    rw [hj]
    rfl
  case positive =>
    have hj : justify ((start : Int) - tick) = (2, 1) := (if_neg (by omega)).trans (if_pos he)
    refine onRange_live awake ho ((superframeDo_runs runs _).trans ?_)
    rw [hj]
    rfl
  case none =>
    have hj : justify ((start : Int) - tick) = (1, 0) := (if_neg (by omega)).trans (if_neg (by omega))
    refine onRange_live awake ho ((superframeDo_runs runs _).trans ?_)
    rw [hj]
    rfl
  case line =>
    have heard := overheadDo_line (c := c) (b := faw ++ rest) (x := x) (f := f) runs del hloop hline
    exact ⟨fun out hfaw =>
      ⟨fun third => onRange_live awake ho (heard.trans ((overheadAt_hunts out).trans (huntDo_ends hfaw third))),
        fun empty => onRange_live awake ho (heard.trans ((overheadAt_hunts out).trans (huntDo_first hfaw empty)))⟩,
      fun frame hx =>
      ⟨fun hfaw => onRange_live awake ho (heard.trans ((overheadAt_nominal frame hx).trans (if_pos hfaw))),
        fun hfaw => onRange_live awake ho (heard.trans ((overheadAt_nominal frame hx).trans
          (if_neg (Bool.eq_false_iff.1 hfaw))))⟩⟩

/-- Settles O45: defects by their criteria, then the two page switches. -/
theorem linkDefectsAndPagesFollow : Obligations.LinkDefectsAndPagesFollow := by
  intro o s awake ho
  refine ⟨fun d hd runs => ⟨fun hp hc => onRange_live awake ho (defectDo_declares hd runs hp hc),
      fun hp hc => onRange_live awake ho (defectDo_clears hd runs hp hc)⟩,
    fun hp hb => onRange_live awake ho (if_pos (switchStatus_ok_iff.2 ⟨hp, hb⟩)),
    fun busy => onRange_live awake ho (if_neg fun ok => ?_),
    fun hp ha hm => ⟨onRange_live awake ho (txPageDo_due hp ha hm), fun k hk => storeOf_gone rfl hk⟩,
    fun page hb hv hne => onRange_live awake ho (rxPageDo_voted hb hv hne)⟩
  obtain ⟨hp, hb⟩ := switchStatus_ok_iff.1 ok
  rcases busy with h | h
  · exact absurd (h.symm.trans hp) (by decide)
  · exact absurd (h.symm.trans hb) (by decide)

end Sys2Proof.Machine

/-! The ToD, the servo and the reference (R234 to R236). -/

namespace Sys2Proof.Machine

open Sys2Proof

section clock

variable {s : State}

/-! ### What leaves the FRC -/

/-- A fold of steps that leave the FRC leaves it. -/
theorem foldl_frc {α : Type} {f : State → α → State} (h : ∀ s a, (f s a).frc = s.frc) (l : List α) (s : State) :
    (l.foldl f s).frc = s.frc :=
  List.foldlRecOn (motive := fun t : State => t.frc = s.frc) l _ rfl fun t ht a _ => (h t a).trans ht

theorem openBlock_frc {b : Nat} {t : State} (h : openBlock s = some (b, t)) : t.frc = s.frc := by
  unfold openBlock at h
  split at h
  · contradiction
  · obtain ⟨-, rfl⟩ := Prod.mk.inj (Option.some.inj h)
    rfl

@[simp] theorem startProgram_frc (s : State) : (startProgram s).frc = s.frc := by
  unfold startProgram
  dsimp only
  split
  · rfl
  · split
    next => rfl
    next b t hplace =>
      split at hplace
      next =>
        obtain ⟨-, rfl⟩ := Prod.mk.inj (Option.some.inj hplace)
        rfl
      next => exact (openBlock_frc hplace :)

@[simp] theorem notifyRec_frc (s : State) : (notifyRec s).frc = s.frc := by
  unfold notifyRec notify
  split <;> rfl

@[simp] theorem storeNotes_frc (s : State) : (storeNotes s).frc = s.frc := by
  unfold storeNotes whenever
  dsimp only
  split <;> split <;> simp

@[simp] theorem writeEntry_frc (e : LogEntry) (s : State) : (writeEntry e s).frc = s.frc := by
  unfold writeEntry
  split
  · rfl
  · split
    · exact (notifyRec_frc _).trans (storeNotes_frc _)
    · exact storeNotes_frc _

theorem recPlain_frc (code info0 info1 : Nat) (s : State) : (recPlain code info0 info1 s).frc = s.frc := by
  simp only [recPlain, recEvent]
  split
  · split
    · rfl
    · split <;> rfl
  · split
    · rfl
    · split
      · exact startProgram_frc _
      · exact (startProgram_frc _).trans (writeEntry_frc _ _)

theorem gateFollow_frc (p : Nat) (s : State) : (gateFollow p s).frc = s.frc := by
  unfold gateFollow
  dsimp only
  split <;> rfl

theorem gateListChangeDo_frc (p : Nat) (s : State) : (gateListChangeDo p s).frc = s.frc := by
  unfold gateListChangeDo applyPending
  split
  · split
    · split <;> rfl
    · rfl
  · rfl

theorem haltFrame_frc (n : Nat) (f : Frame) (s : State) : (haltFrame n f s).frc = s.frc := by
  unfold haltFrame
  split
  · rfl
  · split <;> rfl

theorem settlePreempt_frc (p : Nat) (s : State) : (settlePreempt p s).frc = s.frc := by
  unfold settlePreempt
  split
  · rfl
  · split
    · exact haltFrame_frc _ _ _
    · split <;> rfl

theorem refreshActive_frc (p : Nat) (s : State) : (refreshActive p s).frc = s.frc := by
  unfold refreshActive
  refine (foldl_frc (fun t k => ?_) _ _).trans ((foldl_frc (fun t q => ?_) _ _).trans rfl)
  · dsimp only
    split <;> rfl
  · split
    · split <;> rfl
    · rfl

theorem markShut_frc (p : Nat) (s : State) : (markShut p s).frc = s.frc :=
  foldl_frc (f := fun s (f : Frame) => s.setFrame { f with gateShut := true }) (fun _ _ => rfl) _ s

theorem gatesMoved_frc (p : Nat) (s : State) : (gatesMoved p s).frc = s.frc :=
  (refreshActive_frc p _).trans ((settlePreempt_frc p _).trans (markShut_frc p s))

theorem gatesAfterStep_frc (s : State) : (gatesAfterStep s).frc = s.frc :=
  foldl_frc (f := fun s (e : Nat × PortSt) => gateFollow e.1 (gateListChangeDo e.1 s))
    (fun t e => (gateFollow_frc e.1 _).trans (gateListChangeDo_frc e.1 t)) _ s

theorem gatesStepped_frc (s : State) : (gatesStepped s).frc = s.frc :=
  (foldl_frc (f := fun s (e : Nat × PortSt) => gatesMoved e.1 s) (fun t e => gatesMoved_frc e.1 t) _ _).trans
    (gatesAfterStep_frc s)

theorem toutAfterStep_frc (n : Nat) (s : State) : (toutAfterStep n s).frc = s.frc := by
  unfold toutAfterStep
  dsimp only
  split
  · rfl
  · split
    · rfl
    · split
      · split <;> rfl
      · rfl

/-- A step of the ToD leaves the FRC (R235). -/
theorem stepTod_frc (servo : Bool) (d : Int) (tod : Nat) (s : State) : (stepTod servo d tod s).frc = s.frc :=
  (foldl_frc (fun t n => toutAfterStep_frc n t) _ _).trans ((gatesStepped_frc _).trans (recPlain_frc ..))

theorem setTo_eq (sec ns frac : Nat) (s : State) : setTo sec ns frac s =
    stepTod false ((((sec * 10 ^ 9 + ns) * 65536 + frac : Nat) : Int) - s.tod16)
      (todOf16 ((sec * 10 ^ 9 + ns) * 65536 + frac)) s := rfl

theorem setTo_frc (sec ns frac : Nat) (s : State) : (setTo sec ns frac s).time.frc = s.time.frc := by
  rw [setTo_eq]
  exact stepTod_frc ..

theorem whenever_of {b : Bool} (f : State → State) (h : b = true) : whenever b f s = f s := if_pos h

theorem whenever_not {b : Bool} (f : State → State) (h : b = false) : whenever b f s = s :=
  if_neg (Bool.eq_false_iff.1 h)

/-! ### The servo and the reference -/

/-- The servo's state with a sample counted, before it corrects the clock. -/
def sampled (d : Int) (s : State) : State :=
  let t := (s.inc F.timeStatus_SAMPLES 0).puts 0
    [(F.timeStatus_LAST_OFFSET, ofSigned 32 (satSigned 32 (d / 65536))), (F.timeStatus_STATE, 1)]
  { t with time := { t.time with lastSample := t.frc } }

theorem servoSample_steps {d : Int} (hthr : (sampled d s).get F.timeCfg_STEP_THRESH 0 ≠ 0)
    (far : (sampled d s).get F.timeCfg_STEP_THRESH 0 * 65536 ≤ d.natAbs) :
    servoSample d s = stepBy true (-d) (sampled d s) := by
  have steps : (decide ((sampled d s).get F.timeCfg_STEP_THRESH 0 ≠ 0) &&
      decide ((sampled d s).get F.timeCfg_STEP_THRESH 0 * 65536 ≤ d.natAbs)) = true := by
    rw [decide_eq_true hthr, decide_eq_true far, Bool.and_self]
  unfold servoSample
  exact if_pos steps

theorem servoSample_slews {d : Int} (near : (sampled d s).get F.timeCfg_STEP_THRESH 0 = 0 ∨
      d.natAbs < (sampled d s).get F.timeCfg_STEP_THRESH 0 * 65536) :
    servoSample d s =
      (let u := sampled d s
       let integ := clampFreq u (u.time.integ - (u.get F.timeCfg_KI 0 : Int) * d)
       let adj := clampFreq u (integ - (u.get F.timeCfg_KP 0 : Int) * d)
       { u with time := { u.time with integ, adj } }) := by
  have slews : ¬(decide ((sampled d s).get F.timeCfg_STEP_THRESH 0 ≠ 0) &&
      decide ((sampled d s).get F.timeCfg_STEP_THRESH 0 * 65536 ≤ d.natAbs)) = true := by
    simpa [Decidable.or_iff_not_imp_left] using near
  unfold servoSample
  exact if_neg slews

theorem servoHoldoverDo_due (hst : s.get F.timeStatus_STATE 0 = 1)
    (hd : s.time.lastSample + s.get F.timeCfg_SAMPLE_TIMEOUT 0 * 10 ^ 6 ≤ s.frc) :
    servoHoldoverDo s =
      (let t := s.put F.timeStatus_STATE 0 2
       { t with time := { t.time with adj := s.time.integ } }) :=
  if_pos (by rw [hst, decide_eq_true hd]; rfl)

theorem servoHoldoverDo_still (h : s.get F.timeStatus_STATE 0 ≠ 1 ∨
      s.frc < s.time.lastSample + s.get F.timeCfg_SAMPLE_TIMEOUT 0 * 10 ^ 6) : servoHoldoverDo s = s := by
  refine if_neg ?_
  rcases h with h | h
  · simp [h]
  · simp only [decide_eq_false (Nat.not_le.2 h), Bool.and_false, Bool.false_eq_true, not_false_eq_true]

theorem trefLossDo_first (h : s.time.trefLost = false) :
    trefLossDo s =
      (let t := s.puts 0 [(F.timeStatus_TREF_LOCK, 0), (F.timeStatus_TREF_LOST_S, 1)]
       raiseLevel 0x0C trefInst (some (0x20, 0, 0)) { t with time := { t.time with trefLost := true } }) :=
  if_neg (by simp [h])

end clock

/-- Settles O46: SET and STEP, the sample by its offset, the holdover, and the reference. -/
theorem timeIsSetAndServed : Obligations.TimeIsSetAndServed := by
  intro s awake
  refine ⟨fun sec ns frac => ⟨fun big => ?_, fun ok => ⟨?_, setTo_frc ..⟩⟩, fun d => next_live awake rfl,
    fun d => ⟨fun hsrc => ?_, fun hsrc => ⟨fun hthr far => ?_, fun near => ?_⟩⟩,
    fun hst hd => next_live awake (servoHoldoverDo_due hst hd), fun h => next_live awake (servoHoldoverDo_still h),
    fun h => next_live awake (trefLossDo_first h), fun h => next_live awake (if_pos h), next_live awake rfl⟩
  · exact next_live awake (whenever_not _ (decide_eq_false (Nat.not_le.2 big)))
  · exact next_live awake ((whenever_of _ (decide_eq_true ok)).trans (setTo_eq ..))
  · exact next_live awake (whenever_not _ (beq_eq_false_iff_ne.2 hsrc))
  · exact next_live awake ((whenever_of _ (beq_iff_eq.2 hsrc)).trans (servoSample_steps hthr far))
  · exact next_live awake ((whenever_of _ (beq_iff_eq.2 hsrc)).trans (servoSample_slews near))

end Sys2Proof.Machine

/-! The rings, the frames between ports and host memory, the vectors and the muster (R228, R296 to R305, R359). -/

namespace Sys2Proof.Machine

open Sys2Proof

section rings

variable {s : State} {r : Nat}

/-! ### Rings as host software drives them (R297, R300, R303) -/

theorem doorbellRing_rx (h : r < 256) : doorbellRing 1 (0x10000 + 16 * r) = some (false, r) := by
  have aligned : ((0x10000 + 16 * r) % 16 != 0) = false := by simp
  have page : (0x10000 + 16 * r) / 2 ^ 16 = 1 := by omega
  have ring : (0x10000 + 16 * r) % 2 ^ 16 / 16 = r := by omega
  simp only [doorbellRing, aligned, page, ring, Bool.false_eq_true, if_false, h, if_true]

theorem doorbellRing_tx (h : r < 256) : doorbellRing 1 (0x20000 + 16 * r) = some (true, r) := by
  have aligned : ((0x20000 + 16 * r) % 16 != 0) = false := by
    simp [show (0x20000 + 16 * r) % 16 = 0 by omega]
  have page : (0x20000 + 16 * r) / 2 ^ 16 = 2 := by omega
  have ring : (0x20000 + 16 * r) % 2 ^ 16 / 16 = r := by omega
  simp only [doorbellRing, aligned, page, ring, Bool.false_eq_true, if_false, h, if_true]

section tail

variable {mem : List HostWrite} {n place : Nat}

theorem ringTailDo_command (tx : Bool) :
    ringTailDo (.command tx) r n mem s = (hostSoftware mem s).put (ringTail tx) r n := rfl

theorem ringTailDo_doorbell {fn : Nat} {tx : Bool} (hup : pcieUp s = true) (hd : doorbellRing fn place = some (tx, r)) :
    ringTailDo (.doorbell fn) place n mem s = (hostSoftware mem s).put (ringTail tx) r n := by
  simp only [ringTailDo, hd]
  exact whenever_of _ ((pcieUp_hostSoftware mem s).trans hup)

theorem ringTailDo_linkDown {fn : Nat} (hup : pcieUp s = false) :
    ringTailDo (.doorbell fn) place n mem s = hostSoftware mem s := by
  unfold ringTailDo
  cases hd : doorbellRing fn place with
  | none => simp only [hd]
  | some e =>
    simp only [hd]
    exact whenever_not _ ((pcieUp_hostSoftware mem s).trans hup)

end tail

theorem ringEnableDo_stays {tx : Bool} (h : s.on (ringEn tx) r = true ∨ s.sys.perst = true) : ringEnableDo tx r s = s :=
  if_pos (by rcases h with h | h <;> simp [h])

theorem ringEnableDo_enables {tx : Bool} (he : s.on (ringEn tx) r = false) (hp : s.sys.perst = false) :
    ringEnableDo tx r s = s.puts r [(ringEn tx, 1), (ringHead tx, 0), (ringTail tx, 0)] :=
  if_neg (by simp [he, hp])

theorem rxDisableDo_off (h : s.on F.rxRing_EN r = false) : rxDisableDo r s = s := if_pos (by simp [h])

theorem rxDisableDo_idle (he : s.on F.rxRing_EN r = true) (hw : waitingFrame r s = none)
    (hf : s.host.fill.find? (·.1 == r) = none) :
    rxDisableDo r s = pump (refreshActive 1024 (s.put F.rxRing_EN r 0)) := by
  simp only [rxDisableDo, he, hw, fillAbort, hf, Bool.not_true, Bool.false_eq_true, if_false]

theorem txDisableDo_off (h : s.on F.txRing_EN r = false) : txDisableDo r s = s := if_pos (by simp [h])

theorem txDisableDo_on (h : s.on F.txRing_EN r = true) :
    txDisableDo r s =
      (whenever (pcieUp s && (txNext r s).isNone) (txAbort r (ringAvail true r s)) s).put F.txRing_EN r 0 :=
  if_neg (by simp [h])

theorem txAbort_pos {n : Nat} (h : n ≠ 0) : txAbort r n s = (txDone r n 1 s).inc F.hostStatus_ABORTS 0 :=
  if_neg (by simp [h])

theorem txDisableDo_whole (h : s.on F.txRing_EN r = true) (whole : ringAvail true r s = 0 ∨ (txNext r s).isSome = true) :
    txDisableDo r s = s.put F.txRing_EN r 0 := by
  rw [txDisableDo_on h]
  rcases whole with none | some
  · rw [none]
    cases pcieUp s && (txNext r s).isNone <;> rfl
  · rw [whenever_not _ (by simp [Option.isNone_eq_false_iff.2 some])]

theorem txDisableDo_begun (h : s.on F.txRing_EN r = true) (ha : ringAvail true r s ≠ 0) (hn : txNext r s = none)
    (hup : pcieUp s = true) :
    txDisableDo r s = ((txDone r (ringAvail true r s) 1 s).inc F.hostStatus_ABORTS 0).put F.txRing_EN r 0 := by
  rw [txDisableDo_on h, whenever_of _ (by simp [hup, hn]), txAbort_pos ha]

/-! ### Frames and records (R284, R299 to R303) -/

section frames

variable {f : Frame} {since n : Nat} {broken : Bool} {t u : State}

theorem rxDeliverDo_good (hw : waitingFrame r s = some (f, since)) (he : s.on F.rxRing_EN r = true)
    (hup : pcieUp s = true) (hk : descNeed r f.sendBody.length s ≤ ringAvail false r s)
    (hv : evalHop (instOf 0x0F 0) 0 f.sendBody.length s = (t, false)) :
    rxDeliverDo r s =
      (let n := f.sendBody.length
       let x := unstore f (rxWrite r f n n (descNeed r n s) false t)
       pump (refreshActive 1024 (notify (vecIdx 1 r) (finish x.1 tmSent 0 n (correctSent 1024 x.1 n x.2))))) := by
  simp only [rxDeliverDo, hw, he, hup, Nat.not_lt.2 hk, hv, Bool.not_true, Bool.false_or, decide_false, Bool.false_eq_true,
    if_false]

theorem rxHoldDo_over (hw : waitingFrame r s = some (f, since)) (hd : since + s.get F.rxRing_HOLD r * 1000 ≤ s.frc)
    (hk : ringAvail false r s < descNeed r f.sendBody.length s) :
    rxHoldDo r s = pump (refreshActive 1024 (hostDrop f s)) := by
  simp only [rxHoldDo, hw, hd, hk, decide_true, Bool.and_self, if_true]

theorem txFetchDo_blocked (h : pcieUp s = false ∨ droveCredit 1024 s = false) : txFetchDo s = s :=
  if_pos (by rcases h with h | h <;> simp [h])

/-- What makes a transmit frame BAD (R302). -/
def txBad (r n : Nat) (broken : Bool) (s : State) : Bool :=
  let body := txBytes r n s
  let w2 := txWord r 0 2 s
  broken || body.length < 60 || 10236 < body.length ||
    (bit w2 60 && (1024 ≤ bits w2 59 49 || s.get F.portCfg_SPEED (bits w2 59 49) == 0))

section fetch

variable (sound : s.flt.fatal = false) (hup : pcieUp s = true) (hc : droveCredit 1024 s = true)
  (hr : txRingNext s = some r) (hn : txNext r s = some (n, broken))

include sound hup hc hr hn

theorem txFetchDo_bad (bad : txBad r n broken s = true) :
    txFetchDo s = notify (vecIdx 1 (256 + r))
      ((txDone r n 2 { s with host := { s.host with lastTx := r } }).inc F.hostStatus_TX_BAD 0) := by
  simp only [txFetchDo, sound, hup, hc, hr, hn, Bool.not_true, Bool.or_self, Bool.false_eq_true, if_false]
  exact if_pos bad

theorem txFetchDo_good (good : txBad r n broken s = false) :
    txFetchDo s =
      (let t := newId { s with host := { s.host with lastTx := r } }
       let f := txFrame (txWord r 0 2 s) (txBytes r n s) t.1 t.2
       let e := evalHop (instOf 0x0F 0) 0 f.bytes.length (notify (vecIdx 1 (256 + r)) (txDone r n 0 t.2))
       if e.2 then pump (finish f tmDropped drEcc 0 e.1) else { e.1 with frames := e.1.frames ++ [f] }) := by
  simp only [txFetchDo, sound, hup, hc, hr, hn, Bool.not_true, Bool.or_self, Bool.false_eq_true, if_false]
  exact if_neg (Bool.eq_false_iff.1 good)

end fetch

theorem recordDescDo_ring256 : recordDescDo 256 s =
    fillWrite 256 (if s.get F.telemCfg_EXP_DEST 0 = 2 then s else packExport s.telem.fifo s) := by
  simp only [recordDescDo, beq_self_eq_true, if_true, beq_iff_eq]

theorem recordDescDo_learn (hr : r < 256) (hn : s.tab.notices = []) : recordDescDo r s = fillWrite r s := by
  simp [recordDescDo, hn, Nat.ne_of_lt hr]

theorem hostDmaErrorDo_linkDown {fn addr : Nat} (hup : pcieUp s = false) : hostDmaErrorDo fn r addr s = s :=
  if_pos (by simp [hup])

section dmaErrors

variable {addr : Nat} (hup : pcieUp s = true)

include hup

theorem hostDmaErrorDo_rx (hr : r < 256) : hostDmaErrorDo 1 r addr s = rxDisableDo r (dmaError 1 r addr s) := by
  simp only [hostDmaErrorDo, hup, hr, Bool.not_true, Bool.false_eq_true, if_false, if_true]

theorem hostDmaErrorDo_tx (hlo : 256 ≤ r) (hhi : r < 512) :
    hostDmaErrorDo 1 r addr s = txFetchFails (r - 256) (dmaError 1 r addr s) := by
  simp only [hostDmaErrorDo, hup, Nat.not_lt.2 hlo, hhi, Bool.not_true, Bool.false_eq_true, if_false, if_true]

theorem hostDmaErrorDo_command {h : Held} (hr : r < 64)
    (hh : (dmaError 0 r addr s).crook.held.find? (accesses r addr) = some h) :
    hostDmaErrorDo 0 r addr s = crookPump (completeHeld h.n stAborted 0 (abandon h.n (dmaError 0 r addr s))) := by
  simp only [hostDmaErrorDo, hup, hr, dmaCommand, hh, Bool.not_true, Bool.false_eq_true, if_false, if_true]

theorem hostDmaErrorDo_records : hostDmaErrorDo 2 256 addr s = rxDisableDo 256 (dmaError 2 256 addr s) := by
  simp only [hostDmaErrorDo, hup, beq_self_eq_true, Bool.not_true, Bool.false_eq_true, if_false, if_true]

theorem hostDmaErrorDo_faults : hostDmaErrorDo 3 r addr s = dmaError 3 r addr s := by
  simp only [hostDmaErrorDo, hup, Bool.not_true, Bool.false_eq_true, if_false]

end dmaErrors

theorem txFetchFails_off (h : s.on F.txRing_EN r = false) : txFetchFails r s = s := if_pos (by simp [h])

theorem txFetchFails_whole (h : s.on F.txRing_EN r = true) (hn : txNext r s = some (n, broken)) :
    txFetchFails r s = (txAbort r n s).put F.txRing_EN r 0 := by
  simp only [txFetchFails, h, hn, Bool.not_true, Bool.false_eq_true, if_false]

theorem txFetchFails_begun (h : s.on F.txRing_EN r = true) (hn : txNext r s = none) :
    txFetchFails r s = (txAbort r (ringAvail true r s) s).put F.txRing_EN r 0 := by
  simp only [txFetchFails, h, hn, Bool.not_true, Bool.false_eq_true, if_false]

end frames

end rings

section vectors

variable {s : State} {v : Nat}

/-! ### Vectors (R304) -/

theorem vectorFull_iff : vectorFull v s = true ↔ s.get F.vector_COUNT v ≤ s.get F.vector_PENDING v :=
  decide_eq_true_iff

theorem vectorDue_iff : vectorDue v s = true ↔ s.get F.vector_PENDING v ≠ 0 ∧
    lookD 0 s.host.oldest v + s.get F.vector_HOLDOFF v * 250 ≤ s.frc := by
  simp [vectorDue]

theorem unmasked_eq_false (h : (s.msix v).masked = true ∨ pcieUp s = false) : unmasked v s = false := by
  rcases h with h | h <;> simp [unmasked, h]

theorem vectorNotifyDo_of (hm : (s.msix v).masked = false) (hup : pcieUp s = true) :
    vectorNotifyDo v s = if vectorFull v s = true then vectorSend v s else s := by
  simp only [vectorNotifyDo, unmasked, hm, hup, Bool.not_false, Bool.and_self, Bool.true_and]

theorem vectorHoldoffDo_of (hm : (s.msix v).masked = false) (hup : pcieUp s = true) :
    vectorHoldoffDo v s = if vectorDue v s = true then vectorSend v s else s := by
  simp only [vectorHoldoffDo, unmasked, hm, hup, Bool.not_false, Bool.and_self, Bool.true_and]

theorem vectorUnmaskDo_of {addr data : Nat} (hup : pcieUp s = true) :
    vectorUnmaskDo v addr data s =
      if vectorFull v s = true ∨ vectorDue v s = true then vectorSend v (s.setMsix v ⟨addr, data, false⟩)
      else s.setMsix v ⟨addr, data, false⟩ := by
  simp only [← Bool.or_eq_true]
  exact if_neg (by simp [hup])

end vectors

section muster

variable {s : State} {d : Dump}

/-! ### The muster (R228, R305, R359) -/

theorem musterTickDo_still (h : s.on F.musterCfg_EN 0 = false ∨ s.flt.fatal = true ∨ s.frc < s.muster.nextTick) :
    musterTickDo s = s :=
  if_pos (by rcases h with h | h | h <;> simp [h])

theorem musterTickDo_due (he : s.on F.musterCfg_EN 0 = true) (hf : s.flt.fatal = false)
    (hd : s.muster.nextTick ≤ s.frc) :
    musterTickDo s =
      (let t := { s with muster := { s.muster with nextTick := musterTickAfter s } }
       match dumpTarget t with
       | none => musterSkip t
       | some addr => takeDump addr t) :=
  if_neg (by simp [he, hf, Nat.not_lt.2 hd])

section dump

variable {ws : List Word} {read : State}

/-- The dump that a tick takes, once its words are read. -/
def tickDump (addr : Option Nat) (ws : List Word) (u s : State) : Dump :=
  ⟨nextDump s, ws, s.todNs, s.todNs, u.muster.lost, addr, [], 0, none, none⟩

/-- The state with the words of a tick's dump read, and the dump in progress. -/
def tickTaken (addr : Option Nat) (ws : List Word) (read s : State) : State :=
  let u := (evalWords (instOf 0x0C 3) (rangeFrom 0 ws.length) read).1
  { u with muster := { u.muster with lastSeq := nextDump s, lost := 0, dump := some (tickDump addr ws u s) } }

theorem takeDump_buffer {a : Nat} (hm : musterEntries (s.get F.musterCfg_NLIST 0) 0 s = (ws, read)) :
    takeDump (some a) s = dmaWords (a + 32) ws (tickTaken (some a) ws read s) := by
  simp only [takeDump, hm]
  rfl

theorem takeDump_shepherd (hm : musterEntries (s.get F.musterCfg_NLIST 0) 0 s = (ws, read)) :
    takeDump none s =
      (let v := tickTaken none ws read s
       let d := tickDump none ws (evalWords (instOf 0x0C 3) (rangeFrom 0 ws.length) read).1 s
       sendChunk { d with chunks := dumpChunks d v } v) := by
  simp only [takeDump, hm]
  rfl

end dump

theorem dumpCompleteDo_buffer {a : Nat} (hd : s.muster.dump = some d) (ha : d.addr = some a) :
    dumpCompleteDo s =
      (let t := dmaWords (a + 32 + 8 * d.payload.length) [dumpW0 d] s
       notify (vecIdx 2 1) (setDump none (dmaWords a [dumpW0 d] (dmaWords (a + 8) (dumpHeader d t) t)))) := by
  simp only [dumpCompleteDo, hd, ha]

theorem chunkResendDo_eq {t : Nat} (hd : s.muster.dump = some d) (hr : d.resend = some t) :
    chunkResendDo s = if t ≤ s.frc then sendChunk d s else s := by
  simp only [chunkResendDo, hd, hr]

end muster

/-- Settles O48: the tail through a command and through a doorbell, then EN of each kind of ring. -/
theorem ringsAreDriven : Obligations.RingsAreDriven := by
  intro s awake
  refine ⟨fun tail mem => ⟨fun tx r hr => onRange_live awake hr (ringTailDo_command tx),
      fun hup => ⟨fun r hr => ⟨?_, ?_⟩, ?_⟩,
      fun hup fn offset hfn => onRange_live awake hfn (ringTailDo_linkDown hup)⟩,
    fun r hr => ⟨fun he => onRange_live awake hr (ringEnableDo_stays (.inl he)),
      fun hp => onRange_live awake hr (ringEnableDo_stays (.inr hp)),
      fun he hp => onRange_live awake hr (ringEnableDo_enables he hp),
      fun he => onRange_live awake hr (rxDisableDo_off he),
      fun he hw hf => onRange_live awake hr (rxDisableDo_idle he hw hf)⟩,
    fun r hr => ⟨fun he => onRange_live awake hr (ringEnableDo_stays (.inl he)),
      fun hp => onRange_live awake hr (ringEnableDo_stays (.inr hp)),
      fun he hp => onRange_live awake hr (ringEnableDo_enables he hp),
      fun he => onRange_live awake hr (txDisableDo_off he),
      fun he whole => onRange_live awake hr (txDisableDo_whole he whole),
      fun he ha hn hup => onRange_live awake hr (txDisableDo_begun he ha hn hup)⟩⟩
  · exact onRange_live awake (by decide) (ringTailDo_doorbell hup (doorbellRing_rx hr))
  · exact onRange_live awake (by decide) (ringTailDo_doorbell hup (doorbellRing_tx hr))
  · exact onRange_live awake (by decide) (ringTailDo_doorbell hup (by decide))

/-- Settles O49: reception, transmission, the records' buffers, and the accesses that fail. -/
theorem hostFramesMove : Obligations.HostFramesMove := by
  intro s awake
  refine ⟨fun r f since hr hw => ⟨fun t he hup hk hv => onRange_path awake hr (rxDeliverDo_good hw he hup hk hv),
      fun hd hk => onRange_path awake hr (rxHoldDo_over hw hd hk)⟩,
    fun h => next_path awake (txFetchDo_blocked h), fun r n broken hup hc hr hn => ⟨fun bad => ?_, fun u good hv => ?_⟩,
    onRange_live awake.1 (by decide) recordDescDo_ring256,
    fun r hr hn => onRange_live awake.1 (by omega) (recordDescDo_learn hr hn),
    fun fn r addr hfn => ⟨fun hup => onRange_live awake.1 hfn (hostDmaErrorDo_linkDown hup),
      fun hup => ⟨?_, ?_, ?_, ?_, ?_⟩⟩⟩
  · exact next_path awake (txFetchDo_bad awake.2 hup hc hr hn bad)
  · refine next_path awake ((txFetchDo_good awake.2 hup hc hr hn good).trans ?_)
    simp only [hv, Bool.false_eq_true, if_false]
  · rintro rfl hr
    exact onRange_live awake.1 hfn (hostDmaErrorDo_rx hup hr)
  · rintro t rfl hlo hhi
    have fails := hostDmaErrorDo_tx (addr := addr.toNat) hup hlo hhi
    exact ⟨fun he => onRange_live awake.1 hfn (fails.trans (txFetchFails_off he)),
      fun n broken he hn => onRange_live awake.1 hfn (fails.trans (txFetchFails_whole he hn)),
      fun he hn => onRange_live awake.1 hfn (fails.trans (txFetchFails_begun he hn))⟩
  · rintro t h rfl hr hh
    exact onRange_live awake.1 hfn (hostDmaErrorDo_command hup hr hh)
  · rintro rfl rfl
    exact onRange_live awake.1 hfn (hostDmaErrorDo_records hup)
  · rintro rfl
    exact onRange_live awake.1 hfn (hostDmaErrorDo_faults hup)

/-- Settles O50: each row of a vector by its mask bit and its two conditions. -/
theorem vectorsSend : Obligations.VectorsSend := by
  intro v s awake hv
  refine ⟨fun held => ⟨?_, ?_⟩, fun hm hup => ⟨fun full => ?_, fun full => ?_, fun due => ?_, fun due => ?_⟩,
    fun addr data => ⟨fun hup => ?_, fun hup sends => ?_, fun hup full due => ?_⟩⟩
  all_goals refine onRange_live awake hv ?_
  · exact if_neg (by simp [unmasked_eq_false held])
  · exact if_neg (by simp [unmasked_eq_false held])
  · exact (vectorNotifyDo_of hm hup).trans (if_pos (vectorFull_iff.2 full))
  · exact (vectorNotifyDo_of hm hup).trans (if_neg fun h => full (vectorFull_iff.1 h))
  · exact (vectorHoldoffDo_of hm hup).trans (if_pos (vectorDue_iff.2 due))
  · exact (vectorHoldoffDo_of hm hup).trans (if_neg fun h => due (vectorDue_iff.1 h))
  · exact if_pos (by simp [hup])
  · exact (vectorUnmaskDo_of hup).trans (if_pos (sends.imp vectorFull_iff.2 vectorDue_iff.2))
  · exact (vectorUnmaskDo_of hup).trans (if_neg fun h => h.elim (fun h => full (vectorFull_iff.1 h))
      fun h => due (vectorDue_iff.1 h))

/-- Settles O51: the tick, the end of a dump in a buffer, and the chunk that is sent again. -/
theorem musterDumps : Obligations.MusterDumps := by
  intro s awake
  refine ⟨fun h => next_live awake (musterTickDo_still h),
    fun he hf hd => ⟨fun ht => ?_, fun addr ws read ht hm => ?_⟩,
    fun d a hd ha => next_live awake (dumpCompleteDo_buffer hd ha), fun d t hd hr => ⟨fun due => ?_, fun early => ?_⟩⟩
  · refine next_live awake ((musterTickDo_due he hf hd).trans ?_)
    simp only [ht]
    rfl
  · refine next_live awake ((musterTickDo_due he hf hd).trans ?_)
    simp only [ht]
    cases addr with
    | none => exact takeDump_shepherd hm
    | some a => exact takeDump_buffer hm
  · exact next_live awake ((chunkResendDo_eq hd hr).trans (if_pos due))
  · exact next_live awake ((chunkResendDo_eq hd hr).trans (if_neg (Nat.not_le.2 early)))

end Sys2Proof.Machine

/-! The shepherd's checks of its devices, and the flash under the event log (R341 to R346, R357 to R359). -/

namespace Sys2Proof.Machine

open Sys2Proof

section shepherd

variable {s : State} {d k dl : Nat}

theorem shepherdChallengeDo_due (hc : challenges s = true) (hd : d ≠ s.sys.devid) (hr : (routeOf d s).isSome = true)
    (ho : (s.memberSt d).op = none) (hk : checkDue d s = true) : shepherdChallengeDo d s = startChallenge d s :=
  if_pos (by simp [hc, hd, hr, ho, hk])

theorem shepherdChallengeDo_off (hc : challenges s = false) : shepherdChallengeDo d s = s := if_neg (by simp [hc])

/-- What a reply to challenge k leaves of its device, before it is judged (R357). -/
def replyTaken (d k : Nat) (ws : List Word) (s : State) : State :=
  let signed := replySigned k ws
  let t := s.puts d [(F.memberDev_OBS_SERIAL, replySerial ws), (F.memberDev_OBS_FP, fingerprint (replyKey ws))]
  let u := if signed then t.put F.memberDev_BOOT_NONCE d (ws.getD 2 0).toNat else t
  let winS := if signed then (ws.getD 23 0).toNat % 2 ^ 63 else (u.memberSt d).winS
  u.setMemberSt d { u.memberSt d with op := none, misses := 0, winS }

theorem challengeReplyDo_eq {ws : List Word} (ho : (s.memberSt d).op = some (.challenge k dl)) :
    challengeReplyDo d ws s =
      if replyCause d k ws s != 0 then quarantineDev d (replyCause d k ws s) none (replyTaken d k ws s)
      else if memberState d (replyTaken d k ws s) != 2 || (ws.getD 2 0).toNat != s.get F.memberDev_BOOT_NONCE d then
        sendAdmit d 0 0 none true (replyTaken d k ws s)
      else replyTaken d k ws s := by
  simp only [challengeReplyDo, ho]
  rfl

theorem challengeTimeoutDo_challenge (ho : (s.memberSt d).op = some (.challenge k dl)) :
    challengeTimeoutDo d s = if dl ≤ s.frc then challengeMiss d s else s := by
  simp only [challengeTimeoutDo, ho]

/-- A device whose check has been missed once more. -/
def missed (d : Nat) (s : State) : State :=
  s.setMemberSt d { s.memberSt d with op := none, misses := (s.memberSt d).misses + 1 }

theorem challengeMiss_lost (hm : memberState d s = 2) (hn : 2 ≤ (s.memberSt d).misses) :
    challengeMiss d s =
      (setMemberState d 4 (missed d s)).setMemberSt d { (missed d s).memberSt d with misses := 0 } := by
  have third : (memberState d (missed d s) == 2 && decide (3 ≤ (s.memberSt d).misses + 1)) = true := by
    rw [Bool.and_eq_true, beq_iff_eq, decide_eq_true_iff]
    exact ⟨hm, Nat.succ_le_succ hn⟩
  exact if_pos third

theorem challengeMiss_retried (h : memberState d s ≠ 2 ∨ (s.memberSt d).misses < 2) :
    challengeMiss d s =
      if challenges s = true ∧ (routeOf d s).isSome = true then startChallenge d (missed d s) else missed d s := by
  have more : ¬(memberState d (missed d s) == 2 && decide (3 ≤ (s.memberSt d).misses + 1)) = true := by
    rw [Bool.and_eq_true, beq_iff_eq, decide_eq_true_iff]
    rintro ⟨hm, hn⟩
    rcases h with h | h
    · exact h hm
    · omega
  simp only [← Bool.and_eq_true]
  exact if_neg more

theorem collectTimeoutDo_due {n : Notice} (hn : s.mgmt.notice = some (n, dl)) (hd : dl ≤ s.frc) :
    collectTimeoutDo s = noticeLost n { s with mgmt := { s.mgmt with notice := none } } := by
  have due : s.mgmt.notice.any (fun x => x.2 ≤ s.frc) = true := by
    rw [hn]
    exact decide_eq_true hd
  refine (if_pos due).trans ?_
  simp only [noticeEnd, hn]
  rfl

end shepherd

section flash

variable {s : State} {b : Nat} {rs : List Rec}

theorem programDoneDo_none (hp : s.flash.prog = none) : programDoneDo s = s := by simp only [programDoneDo, hp]

theorem programDoneDo_some (hp : s.flash.prog = some (b, rs)) :
    programDoneDo s =
      (let t := addPage b rs { s with flash := { s.flash with prog := none } }
       if t.log.clears.isEmpty || t.log.cleared then startProgram t else tryClear t) := by
  simp only [programDoneDo, hp]

/-- The state with a failed program's records waiting again and its block marked bad (R343). -/
def programFailed (b : Nat) (rs : List Rec) (s : State) : State :=
  markBad b false (programAgain (blockSeqs b s ++ rs.map (·.seq)) { s with flash := { s.flash with prog := none } })

section failures

variable (hb : b < s.flash.nblocks) (hst : s.flash.state = 1)

include hb hst

theorem opFailDo_program (hp : s.flash.prog = some (b, rs)) (hx : (s.block b).state ≠ 3) :
    opFailDo b false s =
      if goodBlocks (programFailed b rs s) < 32 then flashFailDo 2 (programFailed b rs s)
      else startProgram (programFailed b rs s) := by
  have runs : ¬(decide (s.flash.nblocks ≤ b) || (s.block b).state == 3 || s.flash.state != 1) = true := by
    simp [hb, hst, hx]
  simp only [opFailDo, hp]
  exact (if_neg runs).trans ((if_neg Bool.false_ne_true).trans (if_neg (by simp)))

theorem opFailDo_erase (hx : (s.block b).state = 0 ∨ (s.block b).state = 2) :
    opFailDo b true s =
      if goodBlocks (markBad b true s) < 32 then flashFailDo 2 (markBad b true s) else markBad b true s := by
  have runs : ¬(decide (s.flash.nblocks ≤ b) || (s.block b).state == 3 || s.flash.state != 1) = true := by
    rcases hx with h | h <;> simp [hb, hst, h]
  have erasable : ¬((s.block b).state == 1) = true := by
    rcases hx with h | h <;> simp [h]
  exact (if_neg runs).trans ((if_pos rfl).trans (if_neg erasable))

end failures

theorem compactDo_still (h : mayProgram s = false ∨ compactBlock s = none) : compactDo s = s := by
  rcases h with h | h
  · exact if_pos (by simp [h])
  · simp [compactDo, h]

theorem compactDo_block (hm : mayProgram s = true) (hc : compactBlock s = some b) :
    compactDo s =
      (let r := copyPages ((latestIn b s).length + 1) b (latestIn b s) s
       if r.1.isEmpty then r.2.setBlock b (erased r.2 (r.2.block b)) else r.2) := by
  simp only [compactDo, hm, hc, Bool.not_true, Bool.false_eq_true, if_false]

theorem patrolDue_iff : patrolDue s = true ↔
    ∀ t, s.flash.lastPatrol = some t → t + s.get F.flashCfg_PATROL_H 0 * 3600 * 10 ^ 9 ≤ s.frc := by
  unfold patrolDue
  cases s.flash.lastPatrol with
  | none => simp
  | some t => exact decide_eq_true_iff.trans ⟨fun h u hu => Option.some.inj hu ▸ h, fun h => h t rfl⟩

/-- A patrol runs on a READY flash with an open log, when it is due (R345). -/
theorem patrolDo_eq (found : List PatrolFinding) :
    patrolDo found s =
      if s.flash.state = 1 ∧ s.sys.logReady = true ∧ patrolDue s = true then
        found.foldl (fun s f => patrolOne f s) { s with flash := { s.flash with lastPatrol := some s.frc } }
      else s := by
  by_cases h : s.flash.state = 1 ∧ s.sys.logReady = true ∧ patrolDue s = true
  · rw [if_pos h]
    exact if_neg (by simp [h.1, h.2.1, h.2.2])
  · rw [if_neg h]
    exact if_pos (by simpa [and_imp, Decidable.or_iff_not_imp_left] using h)

theorem failHolds_iff {cause : Nat} : failHolds cause s = true ↔
    cause = 0 ∨ (cause = 1 ∧ geometryOk s = false) ∨ (cause = 2 ∧ goodBlocks s < 32) := by
  match cause with
  | 0 => simp [failHolds]
  | 1 => simp [failHolds]
  | 2 => simp [failHolds]
  | n + 3 => simp [failHolds]

theorem flashFailDo_eq (cause : Nat) :
    flashFailDo cause s =
      if s.flash.state ≠ 3 ∧ s.on F.flashCfg_EN 0 = true ∧ failHolds cause s = true then
        recPlain 0x41 cause 0 (setFlash 3 (cutProgram s))
      else s := by
  by_cases h : s.flash.state ≠ 3 ∧ s.on F.flashCfg_EN 0 = true ∧ failHolds cause s = true
  · rw [if_pos h]
    exact if_neg (by simp [h.1, h.2.1, h.2.2])
  · rw [if_neg h]
    exact if_pos (by simpa [and_imp, Decidable.or_iff_not_imp_left] using h)

end flash

/-- Settles O52: the challenge that is due, the reply by its cause, and the time-out by the misses in a row. -/
theorem shepherdAdmits : Obligations.ShepherdAdmits := by
  intro d s awake hd
  refine ⟨fun hc hne hr ho hk => onRange_live awake hd (shepherdChallengeDo_due hc hne hr ho hk),
    fun hc => onRange_live awake hd (shepherdChallengeDo_off hc),
    fun k dl ws ho => ⟨fun hcause => ?_, fun hcause hv => ?_, fun hcause hv hb => ?_⟩,
    fun k dl ho => ⟨fun early => ?_, fun due hm hn => ?_, fun due h => ?_⟩,
    fun n dl hn due => next_live awake (collectTimeoutDo_due hn due)⟩
  · exact onRange_live awake hd ((challengeReplyDo_eq ho).trans (if_pos (bne_iff_ne.2 hcause)))
  · refine onRange_live awake hd ((challengeReplyDo_eq ho).trans
      ((if_neg fun h => bne_iff_ne.1 h hcause).trans (if_pos ?_)))
    rw [Bool.or_eq_true, bne_iff_ne, bne_iff_ne]
    exact hv
  · refine onRange_live awake hd ((challengeReplyDo_eq ho).trans
      ((if_neg fun h => bne_iff_ne.1 h hcause).trans (if_neg ?_)))
    rw [Bool.or_eq_true, bne_iff_ne, bne_iff_ne]
    exact fun h => h.elim (fun h => h hv) fun h => h hb
  · exact onRange_live awake hd ((challengeTimeoutDo_challenge ho).trans (if_neg (Nat.not_le.2 early)))
  · exact onRange_live awake hd ((challengeTimeoutDo_challenge ho).trans ((if_pos due).trans (challengeMiss_lost hm hn)))
  · exact onRange_live awake hd ((challengeTimeoutDo_challenge ho).trans ((if_pos due).trans (challengeMiss_retried h)))

/-- Settles O54: the program's end and failure, compaction, the patrol, and the flash that fails. -/
theorem flashWorks : Obligations.FlashWorks := by
  intro s awake
  refine ⟨fun hp => next_live awake (congrArg settleLog (programDoneDo_none hp)),
    fun b rs hp => ⟨fun h => ?_, fun hc hk => ?_⟩,
    fun b rs hp hb hx hst => next_live awake (congrArg settleLog (opFailDo_program hb hst hp hx)),
    fun b hb hx hst => next_live awake (congrArg settleLog (opFailDo_erase hb hst hx)),
    fun h => next_live awake (compactDo_still h), fun b hm hc => ⟨fun hr => ?_, fun hr => ?_⟩,
    fun found => ⟨fun h => ?_, fun h => ?_⟩, fun cause => ⟨fun h => ?_, fun h => ?_⟩⟩
  · refine next_live awake (congrArg settleLog ((programDoneDo_some hp).trans (if_pos ?_)))
    rw [Bool.or_eq_true, List.isEmpty_iff]
    exact h
  · refine next_live awake (congrArg settleLog ((programDoneDo_some hp).trans (if_neg ?_)))
    rw [Bool.or_eq_true, List.isEmpty_iff]
    exact fun h => h.elim hc fun h => absurd (hk.symm.trans h) (by decide)
  · exact next_live awake ((compactDo_block hm hc).trans (if_neg fun h => hr (List.isEmpty_iff.1 h)))
  · exact next_live awake ((compactDo_block hm hc).trans (if_pos (List.isEmpty_iff.2 hr)))
  · refine next_live awake ((patrolDo_eq found).trans (if_neg fun due => h ?_))
    exact ⟨due.1, due.2.1, patrolDue_iff.1 due.2.2⟩
  · exact next_live awake ((patrolDo_eq found).trans (if_pos ⟨h.1, h.2.1, patrolDue_iff.2 h.2.2⟩))
  · refine next_live awake (congrArg settleLog ((flashFailDo_eq cause).trans (if_neg fun fails => h ?_)))
    exact ⟨fails.1, fails.2.1, failHolds_iff.1 fails.2.2⟩
  · exact next_live awake (congrArg settleLog
      ((flashFailDo_eq cause).trans (if_pos ⟨h.1, h.2.1, failHolds_iff.2 h.2.2⟩)))

end Sys2Proof.Machine
